-- ==== Sys2Proof/Word.lean ====
section
/-! DEFINITION. The plain word types and the named wire bytes (spec/00_scope.md rules R9 and R12). -/

namespace Sys2Proof

/-- A byte of the wire, of a display cell or of an argument: the spec's `u8` (R9). -/
abbrev Byte := BitVec 8

/-- A host register value: the spec's `u32` (R9). -/
abbrev Word := BitVec 32

/-- A host address: 12 bits (20_memory R71). -/
abbrev HostAddr := BitVec 12

/-- `NUL` (R12), the filler byte. -/
abbrev NUL : Byte := 0x00

/-- `DLE` (R12). -/
abbrev DLE : Byte := 0x10

/-- `STX` (R12). -/
abbrev STX : Byte := 0x02

/-- `ETX` (R12). -/
abbrev ETX : Byte := 0x03

/-- The space character of a blank cell (R10, 42_keypad R141). -/
abbrev SP : Byte := 0x20

end Sys2Proof
end

