-- ==== Sys2Proof/Config.lean ====
section
/-! DEFINITION. The units, the fixed parameters of spec/00_scope.md rule R7 and the OPEN ones. -/

namespace Sys2Proof

/-- The three device units (R14). -/
inductive UnitId where
  | sq
  | pda
  | spa
  deriving DecidableEq, Repr, Inhabited

/-- The two keypad units, which share one command set (42_keypad R140). -/
inductive KeypadId where
  | sq
  | pda
  deriving DecidableEq, Repr, Inhabited

/-- A keypad unit as a unit. -/
def KeypadId.unit : KeypadId → UnitId
  | .sq => .sq
  | .pda => .pda

/-- `ADDR_u` (10_state R37). -/
def UnitId.addr : UnitId → Byte
  | .sq => 0x40
  | .pda => 0x60
  | .spa => 0x20

/-- `ACK_u` (10_state R37). -/
def UnitId.ackByte : UnitId → Byte
  | .sq => 0x8B
  | .pda => 0x40
  | .spa => 0x00

/-- `H_u`, the rows of a keypad display (10_state R37). -/
def KeypadId.rows : KeypadId → Nat
  | .sq => 12
  | .pda => 10

namespace Config

/-- `W`, the columns of a keypad display (R7). -/
def width : Nat := 16

/-- `SPA_TEXT_MAX` (R7). -/
def spaTextMax : Nat := 7

/-- `MAX_CONTENT`: 128 message bytes less header and trailer (R7, D6). -/
def maxContent : Nat := 124

/-- `MAX_ARGS` (R7). -/
def maxArgs : Nat := 121

/-- `T_GAP`, 4 ms in nanoseconds (R7). -/
def tGap : Nat := 4000000

/-- `REPLY_DEST` (R7). -/
def replyDest : Byte := 0x00

/-- `REPLY_CMD` (R7). -/
def replyCmd : Byte := 0x01

/-- `NEUTRAL`, the pending value of "no key" (R7, 10_state R57). -/
def neutral : Byte := 0x00

/-- `CHAR_BITS` (R7). PRESUMED by the spec itself (general knowledge, D2); log 17. -/
def charBits : Nat := 10

/-- The bytes of `TXBUF` (10_state R28). -/
def txBufSize : Nat := 10

end Config

/-- A non-empty byte string, as R7 wants the spa markers. -/
structure Marker where
  head : Byte
  tail : List Byte
  deriving DecidableEq, Repr, Inhabited

/-- The bytes of a marker. -/
def Marker.bytes (m : Marker) : List Byte := m.head :: m.tail

/-- The OPEN parameters of R7, which an implementation fixes ("the model takes it as an argument").
`State.par` holds one value of them, so a statement about every state is about every value (log 5).
`BAUD` and `RXFIFO_DEPTH` are at least 1, so each is stored as one less than it is. -/
structure Params where
  /-- `BAUD` minus 1. -/
  baudPred : Nat
  /-- `RXFIFO_DEPTH` minus 1. -/
  rxFifoPred : Nat
  /-- `KEYMAP_SQ` (45_host R203: up, down, back, select, pgup, pgdn). -/
  keymapSq : Vector Byte 6
  /-- `KEYMAP_PDA`. -/
  keymapPda : Vector Byte 6
  /-- `KEYMAP_SPA` (45_host R203: 1 to 8, *). -/
  keymapSpa : Vector Byte 9
  /-- `SPA_TXT_OFF`. -/
  spaTxtOff : Nat
  /-- `SPA_PWROFF_OFF`. -/
  spaPwroffOff : Nat
  /-- `SPA_SET_OFF`. -/
  spaSetOff : Nat
  /-- `SPA_SET_MARK`. -/
  spaSetMark : Marker
  /-- `SPA_AIR_OFF`. -/
  spaAirOff : Nat
  /-- `SPA_AIR_MARK`. -/
  spaAirMark : Marker
  /-- `SPA_H2O_OFF`. -/
  spaH2oOff : Nat
  /-- `SPA_H2O_MARK`. -/
  spaH2oMark : Marker
  deriving DecidableEq, Repr, Inhabited

/-- `BAUD` (R7). -/
def Params.baud (p : Params) : Nat := p.baudPred + 1

/-- `RXFIFO_DEPTH` (R7). -/
def Params.rxFifoDepth (p : Params) : Nat := p.rxFifoPred + 1

/-- The parameters the machine is built with: no value is chosen (DESIGN CHOICE of form, log 5). -/
opaque Config.params : Params

end Sys2Proof
end

