-- ==== Sys2Proof/Syntax.lean ====
section
/-! DEFINITION. The instructions: one constructor per row of spec/opcode_table.json. Frames carry their argument
bytes, host operations their data and the operand bits of their address (30_encoding R98, R104). -/

namespace Sys2Proof

/-- A host access (20_memory R71). -/
inductive HostAccess where
  /-- `MemRead(HOST, a, 4)`. -/
  | read (a : HostAddr)
  /-- `MemWrite(HOST, a, 4, v)`. -/
  | write (a : HostAddr) (v : Word)
  deriving DecidableEq, Repr

/-- The address of an access. -/
def HostAccess.addr : HostAccess → HostAddr
  | .read a => a
  | .write a _ => a

/-- Whether an access is a write. -/
def HostAccess.isWrite : HostAccess → Bool
  | .read _ => false
  | .write _ _ => true

/-- A logical frame (10_state R29, 30_encoding R90). -/
structure Frame where
  dest : Byte
  cmd : Byte
  args : List Byte
  deriving DecidableEq, Repr

/-- The unit enables of `CTRL`, the only state that changes decoding (30_encoding R103). -/
structure Enables where
  sq : Bool
  pda : Bool
  spa : Bool
  deriving DecidableEq, Repr

/-- Every unit enabled. -/
def Enables.all : Enables := ⟨true, true, true⟩

/-- The rows of the opcode table. `args` are the frame's argument bytes, all of them, read or not (R19). -/
inductive Instr where
  -- the square keypad's commands (42_keypad)
  | sqProbe (args : List Byte)
  | sqStatus (args : List Byte)
  | sqWrite (args : List Byte)
  | sqHandshake (args : List Byte)
  | sqInvline (args : List Byte)
  | sqClear (args : List Byte)
  | sqScroll (args : List Byte)
  | sqInvrange (args : List Byte)
  | sqUnknown (cmd : Byte) (args : List Byte)
  -- the PDA keypad's commands (42_keypad)
  | pdaProbe (args : List Byte)
  | pdaStatus (args : List Byte)
  | pdaWrite (args : List Byte)
  | pdaHandshake (args : List Byte)
  | pdaInvline (args : List Byte)
  | pdaClear (args : List Byte)
  | pdaScroll (args : List Byte)
  | pdaInvrange (args : List Byte)
  | pdaUnknown (cmd : Byte) (args : List Byte)
  -- the spa keypad's commands (43_spa)
  | spaProbe (args : List Byte)
  | spaBstatus (args : List Byte)
  | spaTstatus (args : List Byte)
  | spaChreq (args : List Byte)
  | spaUnknown (cmd : Byte) (args : List Byte)
  -- a valid frame for no enabled unit (44_dispatcher R182), and the reply (40_framecodec R118)
  | discard (dest cmd : Byte) (args : List Byte)
  | ack (u : UnitId) (p : Byte)
  -- the global registers (45_host)
  | hCtrlWr (v : Word)
  | hCtrlRd
  | hStatusRd
  | hEventsRd
  | hEventsW1c (v : Word)
  | hLastErrRd
  | hCntFrameOkRd
  | hCntAddressedRd
  | hCntErrChecksumRd
  | hCntErrEscapeRd
  | hCntErrOversizeRd
  | hCntErrRuntRd
  | hCntErrLineRd
  | hCntErrOverrunRd
  | hCntReplySentRd
  | hCntUnknownCmdRd
  | hCntErrCmdArgRd
  | hCntErrHostRd
  -- the square keypad's registers and windows; `j` is the word of the window
  | hKeyWrSq (v : Word)
  | hPendingRdSq
  | hInvRdSq
  | hKstatLenRdSq
  | hDimsRdSq
  | hSeqRdSq
  | hKstatRdSq (j : BitVec 5)
  | hDispRdSq (j : BitVec 6)
  -- the PDA keypad's
  | hKeyWrPda (v : Word)
  | hPendingRdPda
  | hInvRdPda
  | hKstatLenRdPda
  | hDimsRdPda
  | hSeqRdPda
  | hKstatRdPda (j : BitVec 5)
  | hDispRdPda (j : BitVec 6)
  -- the spa keypad's
  | hKeyWrSpa (v : Word)
  | hPendingRdSpa
  | hDimsRdSpa
  | hSeqRdSpa
  | hSpaStateRd
  | hSpaTextLenRd
  | hSpaTextRd (j : BitVec 1)
  -- accesses that select no register (20_memory R72, R76)
  | hMisaligned (acc : HostAccess)
  | hUnmapped (acc : HostAccess)
  deriving DecidableEq, Repr

/-- The unit whose EXEC step runs the instruction; `none` for one that no EXEC step runs. -/
def Instr.unit? : Instr → Option UnitId
  | .sqProbe _ | .sqStatus _ | .sqWrite _ | .sqHandshake _ | .sqInvline _ | .sqClear _ | .sqScroll _
  | .sqInvrange _ | .sqUnknown _ _ => some .sq
  | .pdaProbe _ | .pdaStatus _ | .pdaWrite _ | .pdaHandshake _ | .pdaInvline _ | .pdaClear _ | .pdaScroll _
  | .pdaInvrange _ | .pdaUnknown _ _ => some .pda
  | .spaProbe _ | .spaBstatus _ | .spaTstatus _ | .spaChreq _ | .spaUnknown _ _ => some .spa
  | .discard _ _ _ | .ack _ _ => none
  | .hCtrlWr _ | .hCtrlRd | .hStatusRd | .hEventsRd | .hEventsW1c _ | .hLastErrRd | .hCntFrameOkRd
  | .hCntAddressedRd | .hCntErrChecksumRd | .hCntErrEscapeRd | .hCntErrOversizeRd | .hCntErrRuntRd
  | .hCntErrLineRd | .hCntErrOverrunRd | .hCntReplySentRd | .hCntUnknownCmdRd | .hCntErrCmdArgRd
  | .hCntErrHostRd => none
  | .hKeyWrSq _ | .hPendingRdSq | .hInvRdSq | .hKstatLenRdSq | .hDimsRdSq | .hSeqRdSq | .hKstatRdSq _
  | .hDispRdSq _ => none
  | .hKeyWrPda _ | .hPendingRdPda | .hInvRdPda | .hKstatLenRdPda | .hDimsRdPda | .hSeqRdPda | .hKstatRdPda _
  | .hDispRdPda _ => none
  | .hKeyWrSpa _ | .hPendingRdSpa | .hDimsRdSpa | .hSeqRdSpa | .hSpaStateRd | .hSpaTextLenRd
  | .hSpaTextRd _ => none
  | .hMisaligned _ | .hUnmapped _ => none

end Sys2Proof
end

