-- ==== Sys2Proof/WellFormed.lean ====
section
/-! DEFINITION. Which terms of `Instr` are instructions of the block: the lengths of 30_encoding R95, the reserved
command bytes of R98 and R100, and the address map of 20_memory R75 for the two host rows that lie outside it. -/

namespace Sys2Proof

/-- The command bytes R98 lists for the keypad units. -/
def keypadCommands : List Byte := [0x00, 0x02, 0x04, 0x05, 0x08, 0x09, 0x0F, 0x10]

/-- The command bytes R98 lists for the spa unit. -/
def spaCommands : List Byte := [0x00, 0x02, 0x03, 0x09]

/-- At most `MAX_ARGS` argument bytes (R95). -/
def argsFit (args : List Byte) : Bool := args.length ≤ Config.maxArgs

/-- An aligned address (20_memory R72). -/
def aligned (a : HostAddr) : Bool := a.toNat % 4 = 0

/-- The addresses a read of which R75 lists, as ranges of aligned addresses. -/
def readMapped (a : HostAddr) : Bool :=
  let n := a.toNat
  n < 0x040
    || (0x100 ≤ n && n < 0x114) || (0x180 ≤ n && n < 0x300)
    || (0x400 ≤ n && n < 0x414) || (0x480 ≤ n && n < 0x600)
    || (0x700 ≤ n && n < 0x714) || (0x720 ≤ n && n < 0x728)

/-- The only addresses a write to which has an effect (20_memory R78). -/
def writeMapped (a : HostAddr) : Bool :=
  let n := a.toNat
  n = 0x000 || n = 0x008 || n = 0x100 || n = 0x400 || n = 0x700

/-- An access R75 gives a meaning, if it is aligned. -/
def HostAccess.mapped : HostAccess → Bool
  | .read a => readMapped a
  | .write a _ => writeMapped a

/-- The well-formed instructions. -/
def Instr.wf : Instr → Bool
  | .sqProbe args | .sqStatus args | .sqWrite args | .sqHandshake args | .sqInvline args | .sqClear args
  | .sqScroll args | .sqInvrange args => argsFit args
  | .pdaProbe args | .pdaStatus args | .pdaWrite args | .pdaHandshake args | .pdaInvline args | .pdaClear args
  | .pdaScroll args | .pdaInvrange args => argsFit args
  | .spaProbe args | .spaBstatus args | .spaTstatus args | .spaChreq args => argsFit args
  | .sqUnknown cmd args | .pdaUnknown cmd args => argsFit args && !keypadCommands.contains cmd
  | .spaUnknown cmd args => argsFit args && !spaCommands.contains cmd
  | .discard _ _ args => argsFit args
  | .ack _ _ => true
  | .hCtrlWr _ | .hCtrlRd | .hStatusRd | .hEventsRd | .hEventsW1c _ | .hLastErrRd | .hCntFrameOkRd
  | .hCntAddressedRd | .hCntErrChecksumRd | .hCntErrEscapeRd | .hCntErrOversizeRd | .hCntErrRuntRd
  | .hCntErrLineRd | .hCntErrOverrunRd | .hCntReplySentRd | .hCntUnknownCmdRd | .hCntErrCmdArgRd
  | .hCntErrHostRd => true
  | .hKeyWrSq _ | .hPendingRdSq | .hInvRdSq | .hKstatLenRdSq | .hDimsRdSq | .hSeqRdSq | .hKstatRdSq _
  | .hDispRdSq _ => true
  | .hKeyWrPda _ | .hPendingRdPda | .hInvRdPda | .hKstatLenRdPda | .hDimsRdPda | .hSeqRdPda | .hKstatRdPda _
  | .hDispRdPda _ => true
  | .hKeyWrSpa _ | .hPendingRdSpa | .hDimsRdSpa | .hSeqRdSpa | .hSpaStateRd | .hSpaTextLenRd
  | .hSpaTextRd _ => true
  | .hMisaligned acc => !aligned acc.addr
  | .hUnmapped acc => aligned acc.addr && !acc.mapped

/-- Whether a unit is enabled (10_state R32). -/
def Enables.has (en : Enables) : UnitId → Bool
  | .sq => en.sq
  | .pda => en.pda
  | .spa => en.spa

/-- No enabled unit has this address (30_encoding R102). -/
def Enables.unmatched (en : Enables) (dest : Byte) : Bool :=
  [UnitId.sq, .pda, .spa].all fun u => !(dest == u.addr && en.has u)

/-- The instruction is one that a block with these enables runs: a unit's command needs the unit enabled, and a frame
is discarded only when its address selects no enabled unit (30_encoding R98, R102). -/
def Instr.admissible (en : Enables) (i : Instr) : Bool :=
  match i.unit? with
  | some u => en.has u
  | none => match i with
    | .discard dest _ _ => en.unmatched dest
    | _ => true

end Sys2Proof
end

