-- ==== Sys2Proof/Decode.lean ====
section
/-! DEFINITION. The frame codec of spec/40_framecodec.md, the command map of 30_encoding R98, the host map of
20_memory R75 by the keys of 30_encoding R104, the decoder and, after it, the encoder. -/

namespace Sys2Proof

/-! ### Checksum and stuffing -/

/-- `checksum(s)` (R110): the exact sum, narrowed to 8 bits. -/
def checksum (s : List Byte) : Byte := BitVec.ofNat 8 (s.map BitVec.toNat).sum

/-- `frame_cs(dest, cmd, args)` (R111, R93): over the unstuffed bytes, header included. -/
def frameCs (dest cmd : Byte) (args : List Byte) : Byte := checksum ([DLE, STX, dest, cmd] ++ args)

/-- `stuff` (R91): a filler after every content byte equal to `DLE`. -/
def stuff : List Byte → List Byte
  | [] => []
  | b :: s => if b = DLE then DLE :: NUL :: stuff s else b :: stuff s

/-- The content `C` of a frame (R90). -/
def frameContent (dest cmd : Byte) (args : List Byte) : List Byte :=
  [dest, cmd] ++ args ++ [frameCs dest cmd args]

/-- `encode(dest, cmd, args)` (R112, R113): the stuffed wire bytes. -/
def encodeFrame (dest cmd : Byte) (args : List Byte) : List Byte :=
  [DLE, STX] ++ stuff (frameContent dest cmd args) ++ [DLE, ETX]

/-- The checksum a receiver computes over a content (R116): header and all bytes but the last. -/
def contentCs (c : List Byte) : Byte := checksum ([DLE, STX] ++ c.take (c.length - 1))

/-- The checksum byte a content carries: its last (R94). -/
def contentLast (c : List Byte) : Byte := c.getD (c.length - 1) 0

/-- `valid(C)` (R116). -/
def validContent (c : List Byte) : Bool := decide (3 ≤ c.length) && contentCs c == contentLast c

/-- The frame in a content (R94): byte 0, byte 1, and what lies between them and the checksum byte. -/
def contentFrame (c : List Byte) : Frame :=
  ⟨c.getD 0 0, c.getD 1 0, (c.take (c.length - 1)).drop 2⟩

/-! ### Codes: what an instruction is written as -/

/-- An encoded instruction, by the formats of spec/opcode_table.json. -/
inductive Code where
  /-- FRAME: the stuffed bytes of a frame received from the line. -/
  | rx (wire : List Byte)
  /-- REPLY: the stuffed bytes of the frame the block sends. -/
  | reply (wire : List Byte)
  /-- HOST_RD and HOST_WR: a host access. -/
  | host (acc : HostAccess)
  deriving DecidableEq, Repr

/-- Why bytes are no instruction. -/
inductive DecodeError where
  /-- The bytes do not begin `DLE STX`. -/
  | noHeader
  /-- The bytes end before a `DLE ETX`. -/
  | noTrailer
  /-- Bytes follow the first `DLE ETX`. -/
  | bytesAfterTrailer
  /-- A `DLE` followed by this byte, neither filler nor `ETX` (41_busreader R128). -/
  | badEscape (b : Byte)
  /-- A content of this many bytes, fewer than 3 (41_busreader R129). -/
  | runt (n : Nat)
  /-- A content over `MAX_CONTENT` bytes (41_busreader R127). -/
  | oversize (n : Nat)
  /-- The computed and the received checksum differ (41_busreader R129). -/
  | badChecksum (computed received : Byte)
  /-- A frame that no unit's reply encoder builds (40_framecodec R118). -/
  | notAReply (f : Frame)
  deriving DecidableEq, Repr

/-- The content of the bytes after the header: fillers removed, up to a `DLE ETX` that must be the end (R91, R92). -/
def unstuff : List Byte → Except DecodeError (List Byte)
  | [] => .error .noTrailer
  | [_] => .error .noTrailer
  | b :: c :: rest =>
    if b = DLE then
      if c = NUL then (unstuff rest).map (DLE :: ·)
      else if c = ETX then (if rest.isEmpty then .ok [] else .error .bytesAfterTrailer)
      else .error (.badEscape c)
    else (unstuff (c :: rest)).map (b :: ·)

/-- The frame of a content, or why there is none (R95, R116). -/
def frameOfContent (c : List Byte) : Except DecodeError Frame :=
  if c.length < 3 then .error (.runt c.length)
  else if Config.maxContent < c.length then .error (.oversize c.length)
  else if contentCs c = contentLast c then .ok (contentFrame c)
  else .error (.badChecksum (contentCs c) (contentLast c))

/-- The frame of stuffed wire bytes (R90, R91). -/
def decodeWire : List Byte → Except DecodeError Frame
  | b0 :: b1 :: rest =>
    if b0 = DLE ∧ b1 = STX then (unstuff rest).bind frameOfContent else .error .noHeader
  | [_] => .error .noHeader
  | [] => .error .noHeader

/-! ### The command map (R98) -/

/-- A command of the square keypad. -/
def sqCommand (cmd : Byte) (args : List Byte) : Instr :=
  if cmd = 0x00 then .sqProbe args
  else if cmd = 0x02 then .sqStatus args
  else if cmd = 0x04 then .sqWrite args
  else if cmd = 0x05 then .sqHandshake args
  else if cmd = 0x08 then .sqInvline args
  else if cmd = 0x09 then .sqClear args
  else if cmd = 0x0F then .sqScroll args
  else if cmd = 0x10 then .sqInvrange args
  else .sqUnknown cmd args

/-- A command of the PDA keypad. -/
def pdaCommand (cmd : Byte) (args : List Byte) : Instr :=
  if cmd = 0x00 then .pdaProbe args
  else if cmd = 0x02 then .pdaStatus args
  else if cmd = 0x04 then .pdaWrite args
  else if cmd = 0x05 then .pdaHandshake args
  else if cmd = 0x08 then .pdaInvline args
  else if cmd = 0x09 then .pdaClear args
  else if cmd = 0x0F then .pdaScroll args
  else if cmd = 0x10 then .pdaInvrange args
  else .pdaUnknown cmd args

/-- A command of the spa keypad. -/
def spaCommand (cmd : Byte) (args : List Byte) : Instr :=
  if cmd = 0x00 then .spaProbe args
  else if cmd = 0x02 then .spaBstatus args
  else if cmd = 0x03 then .spaTstatus args
  else if cmd = 0x09 then .spaChreq args
  else .spaUnknown cmd args

/-- The command `cmd` of unit `u`: no state changes this map (R103). -/
def commandOf (u : UnitId) (cmd : Byte) (args : List Byte) : Instr :=
  match u with
  | .sq => sqCommand cmd args
  | .pda => pdaCommand cmd args
  | .spa => spaCommand cmd args

/-- The enabled unit that an address selects, tested in the order of 44_dispatcher R182. -/
def unitFor (en : Enables) (dest : Byte) : Option UnitId :=
  if dest = UnitId.sq.addr ∧ en.sq then some .sq
  else if dest = UnitId.pda.addr ∧ en.pda then some .pda
  else if dest = UnitId.spa.addr ∧ en.spa then some .spa
  else none

/-- The instruction of a received frame (R98, R102, R104). -/
def frameInstr (en : Enables) (f : Frame) : Instr :=
  match unitFor en f.dest with
  | some u => commandOf u f.cmd f.args
  | none => .discard f.dest f.cmd f.args

/-- The unit with this ack byte (10_state R37). -/
def unitOfAck (b : Byte) : Option UnitId :=
  if b = UnitId.sq.ackByte then some .sq
  else if b = UnitId.pda.ackByte then some .pda
  else if b = UnitId.spa.ackByte then some .spa
  else none

/-- The instruction of a sent frame: only `ACK` (R97, R104). -/
def replyInstr (f : Frame) : Except DecodeError Instr :=
  match f.args with
  | [a, p] =>
    if f.dest = Config.replyDest ∧ f.cmd = Config.replyCmd then
      match unitOfAck a with
      | some u => .ok (.ack u p)
      | none => .error (.notAReply f)
    else .error (.notAReply f)
  | _ => .error (.notAReply f)

/-! ### The host map (20_memory R75) by host keys (30_encoding R104) -/

/-- The host key `HK = w << 12 | a` (R104). -/
def HostAccess.key (acc : HostAccess) : BitVec 13 := (BitVec.ofBool acc.isWrite) ++ acc.addr

/-- The data of a write; 0 for a read. -/
def HostAccess.data : HostAccess → Word
  | .read _ => 0
  | .write _ v => v

/-- A row of the host part of the opcode table. -/
structure HostRow where
  /-- The key of the row. -/
  pattern : BitVec 13
  /-- The key bits the row fixes. -/
  mask : BitVec 13
  /-- The row's instruction, its operands taken from the access. -/
  instr : HostAccess → Instr

/-- The row takes the access. -/
def HostRow.takes (r : HostRow) (acc : HostAccess) : Bool := acc.key &&& r.mask == r.pattern

/-- The rows of the global registers. -/
def globalRows : List HostRow := [
  ⟨0x1000, 0x1FFF, fun acc => .hCtrlWr acc.data⟩,
  ⟨0x0000, 0x1FFF, fun _ => .hCtrlRd⟩,
  ⟨0x0004, 0x1FFF, fun _ => .hStatusRd⟩,
  ⟨0x0008, 0x1FFF, fun _ => .hEventsRd⟩,
  ⟨0x1008, 0x1FFF, fun acc => .hEventsW1c acc.data⟩,
  ⟨0x000C, 0x1FFF, fun _ => .hLastErrRd⟩,
  ⟨0x0010, 0x1FFF, fun _ => .hCntFrameOkRd⟩,
  ⟨0x0014, 0x1FFF, fun _ => .hCntAddressedRd⟩,
  ⟨0x0018, 0x1FFF, fun _ => .hCntErrChecksumRd⟩,
  ⟨0x001C, 0x1FFF, fun _ => .hCntErrEscapeRd⟩,
  ⟨0x0020, 0x1FFF, fun _ => .hCntErrOversizeRd⟩,
  ⟨0x0024, 0x1FFF, fun _ => .hCntErrRuntRd⟩,
  ⟨0x0028, 0x1FFF, fun _ => .hCntErrLineRd⟩,
  ⟨0x002C, 0x1FFF, fun _ => .hCntErrOverrunRd⟩,
  ⟨0x0030, 0x1FFF, fun _ => .hCntReplySentRd⟩,
  ⟨0x0034, 0x1FFF, fun _ => .hCntUnknownCmdRd⟩,
  ⟨0x0038, 0x1FFF, fun _ => .hCntErrCmdArgRd⟩,
  ⟨0x003C, 0x1FFF, fun _ => .hCntErrHostRd⟩]

/-- The rows of the square keypad: base 0x100. -/
def sqRows : List HostRow := [
  ⟨0x1100, 0x1FFF, fun acc => .hKeyWrSq acc.data⟩,
  ⟨0x0100, 0x1FFF, fun _ => .hPendingRdSq⟩,
  ⟨0x0104, 0x1FFF, fun _ => .hInvRdSq⟩,
  ⟨0x0108, 0x1FFF, fun _ => .hKstatLenRdSq⟩,
  ⟨0x010C, 0x1FFF, fun _ => .hDimsRdSq⟩,
  ⟨0x0110, 0x1FFF, fun _ => .hSeqRdSq⟩,
  ⟨0x0180, 0x1F83, fun acc => .hKstatRdSq (acc.addr.extractLsb' 2 5)⟩,
  ⟨0x0200, 0x1F03, fun acc => .hDispRdSq (acc.addr.extractLsb' 2 6)⟩]

/-- The rows of the PDA keypad: base 0x400. -/
def pdaRows : List HostRow := [
  ⟨0x1400, 0x1FFF, fun acc => .hKeyWrPda acc.data⟩,
  ⟨0x0400, 0x1FFF, fun _ => .hPendingRdPda⟩,
  ⟨0x0404, 0x1FFF, fun _ => .hInvRdPda⟩,
  ⟨0x0408, 0x1FFF, fun _ => .hKstatLenRdPda⟩,
  ⟨0x040C, 0x1FFF, fun _ => .hDimsRdPda⟩,
  ⟨0x0410, 0x1FFF, fun _ => .hSeqRdPda⟩,
  ⟨0x0480, 0x1F83, fun acc => .hKstatRdPda (acc.addr.extractLsb' 2 5)⟩,
  ⟨0x0500, 0x1F03, fun acc => .hDispRdPda (acc.addr.extractLsb' 2 6)⟩]

/-- The rows of the spa keypad: base 0x700. -/
def spaRows : List HostRow := [
  ⟨0x1700, 0x1FFF, fun acc => .hKeyWrSpa acc.data⟩,
  ⟨0x0700, 0x1FFF, fun _ => .hPendingRdSpa⟩,
  ⟨0x070C, 0x1FFF, fun _ => .hDimsRdSpa⟩,
  ⟨0x0710, 0x1FFF, fun _ => .hSeqRdSpa⟩,
  ⟨0x0704, 0x1FFF, fun _ => .hSpaStateRd⟩,
  ⟨0x0708, 0x1FFF, fun _ => .hSpaTextLenRd⟩,
  ⟨0x0720, 0x1FFB, fun acc => .hSpaTextRd (acc.addr.extractLsb' 2 1)⟩]

/-- Every register and window row. -/
def hostRows : List HostRow := globalRows ++ sqRows ++ pdaRows ++ spaRows

/-- The instruction of a host access: the misaligned row first, the unmapped row last (R104). -/
def accessInstr (acc : HostAccess) : Instr :=
  if acc.addr.extractLsb' 0 2 ≠ 0 then .hMisaligned acc
  else match hostRows.find? (·.takes acc) with
    | some r => r.instr acc
    | none => .hUnmapped acc

/-! ### The decoder -/

/-- The instruction of a code, under these enables. Total; what is no instruction is rejected by name. -/
def decode (en : Enables) : Code → Except DecodeError Instr
  | .rx wire => (decodeWire wire).map (frameInstr en)
  | .reply wire => (decodeWire wire).bind replyInstr
  | .host acc => .ok (accessInstr acc)

/-! ### The encoder -/

/-- What an instruction says, before it is written as bytes. -/
inductive Message where
  | frame (f : Frame)
  | reply (f : Frame)
  | access (acc : HostAccess)
  deriving DecidableEq, Repr

/-- The frame or access of an instruction (R98, R97, 20_memory R75). -/
def Instr.message : Instr → Message
  | .sqProbe args => .frame ⟨0x40, 0x00, args⟩
  | .sqStatus args => .frame ⟨0x40, 0x02, args⟩
  | .sqWrite args => .frame ⟨0x40, 0x04, args⟩
  | .sqHandshake args => .frame ⟨0x40, 0x05, args⟩
  | .sqInvline args => .frame ⟨0x40, 0x08, args⟩
  | .sqClear args => .frame ⟨0x40, 0x09, args⟩
  | .sqScroll args => .frame ⟨0x40, 0x0F, args⟩
  | .sqInvrange args => .frame ⟨0x40, 0x10, args⟩
  | .sqUnknown cmd args => .frame ⟨0x40, cmd, args⟩
  | .pdaProbe args => .frame ⟨0x60, 0x00, args⟩
  | .pdaStatus args => .frame ⟨0x60, 0x02, args⟩
  | .pdaWrite args => .frame ⟨0x60, 0x04, args⟩
  | .pdaHandshake args => .frame ⟨0x60, 0x05, args⟩
  | .pdaInvline args => .frame ⟨0x60, 0x08, args⟩
  | .pdaClear args => .frame ⟨0x60, 0x09, args⟩
  | .pdaScroll args => .frame ⟨0x60, 0x0F, args⟩
  | .pdaInvrange args => .frame ⟨0x60, 0x10, args⟩
  | .pdaUnknown cmd args => .frame ⟨0x60, cmd, args⟩
  | .spaProbe args => .frame ⟨0x20, 0x00, args⟩
  | .spaBstatus args => .frame ⟨0x20, 0x02, args⟩
  | .spaTstatus args => .frame ⟨0x20, 0x03, args⟩
  | .spaChreq args => .frame ⟨0x20, 0x09, args⟩
  | .spaUnknown cmd args => .frame ⟨0x20, cmd, args⟩
  | .discard dest cmd args => .frame ⟨dest, cmd, args⟩
  | .ack u p => .reply ⟨0x00, 0x01, [u.ackByte, p]⟩
  | .hCtrlWr v => .access (.write 0x000 v)
  | .hCtrlRd => .access (.read 0x000)
  | .hStatusRd => .access (.read 0x004)
  | .hEventsRd => .access (.read 0x008)
  | .hEventsW1c v => .access (.write 0x008 v)
  | .hLastErrRd => .access (.read 0x00C)
  | .hCntFrameOkRd => .access (.read 0x010)
  | .hCntAddressedRd => .access (.read 0x014)
  | .hCntErrChecksumRd => .access (.read 0x018)
  | .hCntErrEscapeRd => .access (.read 0x01C)
  | .hCntErrOversizeRd => .access (.read 0x020)
  | .hCntErrRuntRd => .access (.read 0x024)
  | .hCntErrLineRd => .access (.read 0x028)
  | .hCntErrOverrunRd => .access (.read 0x02C)
  | .hCntReplySentRd => .access (.read 0x030)
  | .hCntUnknownCmdRd => .access (.read 0x034)
  | .hCntErrCmdArgRd => .access (.read 0x038)
  | .hCntErrHostRd => .access (.read 0x03C)
  | .hKeyWrSq v => .access (.write 0x100 v)
  | .hPendingRdSq => .access (.read 0x100)
  | .hInvRdSq => .access (.read 0x104)
  | .hKstatLenRdSq => .access (.read 0x108)
  | .hDimsRdSq => .access (.read 0x10C)
  | .hSeqRdSq => .access (.read 0x110)
  | .hKstatRdSq j => .access (.read (0b00011#5 ++ j ++ 0b00#2))
  | .hDispRdSq j => .access (.read (0x2#4 ++ j ++ 0b00#2))
  | .hKeyWrPda v => .access (.write 0x400 v)
  | .hPendingRdPda => .access (.read 0x400)
  | .hInvRdPda => .access (.read 0x404)
  | .hKstatLenRdPda => .access (.read 0x408)
  | .hDimsRdPda => .access (.read 0x40C)
  | .hSeqRdPda => .access (.read 0x410)
  | .hKstatRdPda j => .access (.read (0b01001#5 ++ j ++ 0b00#2))
  | .hDispRdPda j => .access (.read (0x5#4 ++ j ++ 0b00#2))
  | .hKeyWrSpa v => .access (.write 0x700 v)
  | .hPendingRdSpa => .access (.read 0x700)
  | .hDimsRdSpa => .access (.read 0x70C)
  | .hSeqRdSpa => .access (.read 0x710)
  | .hSpaStateRd => .access (.read 0x704)
  | .hSpaTextLenRd => .access (.read 0x708)
  | .hSpaTextRd j => .access (.read (0b011100100#9 ++ j ++ 0b00#2))
  | .hMisaligned acc => .access acc
  | .hUnmapped acc => .access acc

/-- A message as bytes or as an access (R112). -/
def Message.code : Message → Code
  | .frame f => .rx (encodeFrame f.dest f.cmd f.args)
  | .reply f => .reply (encodeFrame f.dest f.cmd f.args)
  | .access acc => .host acc

/-- The code of an instruction. -/
def encode (i : Instr) : Code := i.message.code

/-! ### The words of the opcode table

A row's word is its key (R104): a 16-bit frame key `dest << 8 | cmd`, or a 13-bit host key. The table does not say
which of the two a word is; the frame keys of the three units lie at and above 0x2000 and the host keys below it, and
the reply's key 0x0001 would be a misaligned access as a host key (log 14). -/

/-- How many argument bytes the table's row names for a command (its `args[n]` fields; R99). -/
def rowArgs (dest cmd : Byte) : Nat :=
  if dest = UnitId.spa.addr then
    if cmd = 0x02 then 1 else if cmd = 0x09 then 2 else 0
  else if dest = UnitId.sq.addr ∨ dest = UnitId.pda.addr then
    if cmd = 0x04 ∨ cmd = 0x08 ∨ cmd = 0x09 then 1 else if cmd = 0x0F ∨ cmd = 0x10 then 3 else 0
  else 0

/-- Bytes `start` up to `start + n` of a number, the least significant first. -/
def bytesOf (w start : Nat) : Nat → List Byte
  | 0 => []
  | n + 1 => BitVec.ofNat 8 (w >>> (8 * start)) :: bytesOf w (start + 1) n

/-- The code whose bits are `w`: after the 16 bits of the key, a frame's argument bytes (as many as `nbits` holds, and
at least those the row names), or the data of a write. -/
def tableCode (nbits w : Nat) : Code :=
  let key := w % 0x10000
  if key = 0x0001 then
    .reply (encodeFrame Config.replyDest Config.replyCmd (bytesOf w 2 2))
  else if key < 0x2000 then
    let a := BitVec.ofNat 12 key
    .host (if key < 0x1000 then .read a else .write a (BitVec.ofNat 32 (w >>> 16)))
  else
    let dest := BitVec.ofNat 8 (key >>> 8)
    let cmd := BitVec.ofNat 8 key
    .rx (encodeFrame dest cmd (bytesOf w 2 (max (nbits / 8 - 2) (rowArgs dest cmd))))

/-- The instruction that the decoder reads from a word of the opcode table, every unit enabled (log 14). -/
def decodeTableWord (nbits w : Nat) : Option Instr :=
  match decode Enables.all (tableCode nbits w) with
  | .ok i => some i
  | .error _ => none

end Sys2Proof
end

