-- ==== Sys2Proof/Machine/State.lean ====
section
/-! DEFINITION. Everything the spec gives the machine (spec/10_state.md), as plain data, the model's own fields beside
it, and the state right after reset (10_state R50 to R52, 70_reset R250). -/

namespace Sys2Proof.Machine

/-- Reasons the machine stops. There are none: a fault of this hardware is a recorded event that never stops the
block (60_exceptions R222, R225; 00_scope R11), and every state has a next state. Safe (log 18). -/
inductive Fault where
  deriving DecidableEq, Repr

/-- Reasons for which the model has no meaning for an instruction. -/
inductive Refusal where
  /-- Raised by an arm of `exec` for an instruction that has no meaning yet. No arm raises it now. Safe. -/
  | notModelled (mnemonic : String)
  deriving DecidableEq, Repr

/-- `DS`, the dispatch-FSM state (R23). -/
inductive DispatchState where
  | stopped
  | recv
  | exec
  | gap
  | tx
  deriving DecidableEq, Repr

/-- The encodings of `DS` (R23). -/
def DispatchState.code : DispatchState → BitVec 3
  | .stopped => 0
  | .recv => 1
  | .exec => 2
  | .gap => 3
  | .tx => 4

/-- `SS`, the synchronizer state (R24). -/
inductive SyncState where
  /-- No `DLE` seen. -/
  | hunt
  /-- The last byte consumed while hunting was `DLE`. -/
  | huntDle
  /-- Accumulating, no `DLE` pending. -/
  | acc
  /-- Accumulating, the source's "DLE pending" mark set (R48). -/
  | accDle
  deriving DecidableEq, Repr

/-- The encodings of `SS` (R24). -/
def SyncState.code : SyncState → BitVec 2
  | .hunt => 0
  | .huntDle => 1
  | .acc => 2
  | .accDle => 3

/-- The tri-state of the spa status map (R47). -/
inductive TriState where
  | unknown
  | off
  | on
  deriving DecidableEq, Repr

/-- The encodings of the tri-state (R47). -/
def TriState.code : TriState → BitVec 2
  | .unknown => 0
  | .off => 1
  | .on => 2

/-- `LAST_ERR` without its reserved bits (R35). -/
structure LastErr where
  cause : BitVec 4
  info : BitVec 16
  deriving DecidableEq, Repr

/-- The twelve event counters (R36). -/
structure Counters where
  frameOk : Word
  addressed : Word
  errChecksum : Word
  errEscape : Word
  errOversize : Word
  errRunt : Word
  errLine : Word
  errOverrun : Word
  replySent : Word
  unknownCmd : Word
  errCmdArg : Word
  errHost : Word
  deriving DecidableEq, Repr

/-- `INV_u`, the inverted-region register (R39). `start` and `stop` are the fields `START` and `END`. -/
structure Inv where
  valid : Bool
  line : Byte
  start : Byte
  stop : Byte
  deriving DecidableEq, Repr

/-- The state of a keypad unit (R38 to R42). -/
structure Keypad where
  /-- `DISP_u`: the rows, each a list of cells. -/
  disp : List (List Byte)
  /-- `INV_u`. -/
  inv : Inv
  /-- `KSTAT_LEN_u`. -/
  kstatLen : Nat
  /-- `KSTAT_u`. -/
  kstat : List Byte
  /-- `PENDING_u`. -/
  pending : Byte
  /-- `SEQ_u`. -/
  seq : Word
  deriving DecidableEq, Repr

/-- `SPA_ST`, the spa status map (R45). -/
structure SpaStatus where
  spa : TriState
  jets : TriState
  heat : TriState
  deriving DecidableEq, Repr

/-- The state of the spa unit (R41, R42, R45, R46). -/
structure Spa where
  /-- `SPA_ST`. -/
  st : SpaStatus
  /-- `SPA_TEXT_LEN`. -/
  textLen : Nat
  /-- `SPA_TEXT`. -/
  text : List Byte
  /-- `PENDING_SPA`. -/
  pending : Byte
  /-- `SEQ_SPA`. -/
  seq : Word
  deriving DecidableEq, Repr

/-- One move of an agent (00_scope R15), or the reset input (70_reset R250). -/
inductive Move where
  /-- LINE delivers the character `v`; `err` marks a framing error or a break (41_busreader R120). -/
  | line (v : Byte) (err : Bool)
  /-- ENGINE takes its enabled step, if it has one (log 3). -/
  | engine
  /-- HOST makes one access (20_memory R71). -/
  | host (acc : HostAccess)
  /-- TIME advances by `dt` nanoseconds (10_state R22). -/
  | time (dt : Nat)
  /-- The reset input is asserted (70_reset R250). -/
  | reset
  deriving DecidableEq, Repr

/-- One thing the block does on the line (00_scope R6: the emitted characters with the driver-enable interval). -/
inductive LineOut where
  /-- The driver enable becomes `on` at time `t`. -/
  | driver (t : Nat) (on : Bool)
  /-- The character `v` is emitted with its start at time `t` (44_dispatcher R188). -/
  | char (t : Nat) (v : Byte)
  deriving DecidableEq, Repr

/-- The state of the machine. -/
structure State where
  /-- `DS` (R23). -/
  ds : DispatchState
  /-- `SS` (R24). -/
  ss : SyncState
  /-- `CBUF`, 124 bytes (R25). -/
  cbuf : List Byte
  /-- `CLEN` (R25). -/
  clen : Nat
  /-- `RXFIFO`, the oldest byte first (R26). -/
  rxFifo : List Byte
  /-- `T_REF`, in nanoseconds (R27). -/
  tRef : Nat
  /-- `TXBUF`, 10 bytes (R28). -/
  txBuf : List Byte
  /-- `TXLEN` (R28). -/
  txLen : Nat
  /-- `TXPOS` (R28). -/
  txPos : Nat
  /-- `TX_T0`, in nanoseconds (R28). -/
  txT0 : Nat
  /-- `F_DEST` (R29). -/
  fDest : Byte
  /-- `F_CMD` (R29). -/
  fCmd : Byte
  /-- `F_NARGS` (R29). -/
  fNargs : Nat
  /-- `F_ARGS`, 121 bytes (R29). -/
  fArgs : List Byte
  /-- `F_UNIT` (R29). -/
  fUnit : UnitId
  /-- `DE` (R30). -/
  de : Bool
  /-- `RE_N` (R30). -/
  reN : Bool
  /-- `TXD` at its idle level (R30, log 9). -/
  txd : Bool
  /-- `CTRL`, bits 3 to 0 (R32). -/
  ctrl : BitVec 4
  /-- `EVENTS`, bits 11 to 0 (R34). -/
  events : BitVec 12
  /-- `LAST_ERR` (R35). -/
  lastErr : LastErr
  /-- The counters `CNT_*` (R36). -/
  cnt : Counters
  /-- Unit SQ. -/
  sq : Keypad
  /-- Unit PDA. -/
  pda : Keypad
  /-- Unit SPA. -/
  spa : Spa
  /-- The model's own: the time (R22, log 4). -/
  now : Nat
  /-- The model's own: the moves still to come (log 1). -/
  schedule : List Move
  /-- The model's own: what the latest host read returned (20_memory R71, log 11). -/
  hostRdata : Word
  /-- The model's own: what the block has put on the line, the oldest first (log 10). -/
  lineOut : List LineOut
  /-- The model's own: the OPEN parameters (00_scope R7, log 5). -/
  par : Params
  deriving DecidableEq, Repr

/-- `BLANK` (42_keypad R141). -/
def blankRow : List Byte := List.replicate Config.width SP

/-- `NONE` (42_keypad R141). -/
def Inv.none : Inv := ⟨false, 0, 0, 0⟩

/-- A keypad unit after reset (R52). -/
def Keypad.reset (k : KeypadId) : Keypad where
  disp := List.replicate k.rows blankRow
  inv := Inv.none
  kstatLen := 0
  kstat := List.replicate Config.maxArgs 0
  pending := Config.neutral
  seq := 0

/-- The spa unit after reset (R52). -/
def Spa.reset : Spa where
  st := ⟨.unknown, .unknown, .unknown⟩
  textLen := 0
  text := List.replicate Config.spaTextMax 0
  pending := Config.neutral
  seq := 0

/-- The machine right after reset (R50 to R52, 70_reset R250). The values of `T_REF`, `TX_T0`, `CBUF`, `TXBUF` and the
frame latch are the model's (DESIGN CHOICE, unsafe, log 7); those of the model's own fields are in logs 1, 4, 5, 10, 11. -/
def State.reset : State where
  ds := .stopped
  ss := .hunt
  cbuf := List.replicate Config.maxContent 0
  clen := 0
  rxFifo := []
  tRef := 0
  txBuf := List.replicate Config.txBufSize 0
  txLen := 0
  txPos := 0
  txT0 := 0
  fDest := 0
  fCmd := 0
  fNargs := 0
  fArgs := List.replicate Config.maxArgs 0
  fUnit := .sq
  de := false
  reN := false
  txd := true
  ctrl := 0
  events := 0
  lastErr := ⟨0, 0⟩
  cnt := ⟨0, 0, 0, 0, 0, 0, 0, 0, 0, 0, 0, 0⟩
  sq := Keypad.reset .sq
  pda := Keypad.reset .pda
  spa := Spa.reset
  now := 0
  schedule := []
  hostRdata := 0
  lineOut := []
  par := Config.params

end Sys2Proof.Machine
end

