-- ==== Sys2Proof/Machine/Flags.lean ====
section
/-! DEFINITION. The sticky event bits (10_state R34), the fault causes with their codes, counters and bits
(60_exceptions R221), and the register images computed from live state (R32 to R35, R39, R44, R45). -/

namespace Sys2Proof.Machine

/-- The bits of `EVENTS` (R34). -/
inductive Event where
  | frameErr
  | lineErr
  | overrun
  | cmdArg
  | hostErr
  | unknownCmd
  | frameOk
  | stopped
  | sqCmd
  | pdaCmd
  | spaCmd
  | replySent
  deriving DecidableEq, Repr

/-- The place of an event bit (R34). -/
def Event.bit : Event → Nat
  | .frameErr => 0
  | .lineErr => 1
  | .overrun => 2
  | .cmdArg => 3
  | .hostErr => 4
  | .unknownCmd => 5
  | .frameOk => 6
  | .stopped => 7
  | .sqCmd => 8
  | .pdaCmd => 9
  | .spaCmd => 10
  | .replySent => 11

/-- The event bit in its place. -/
def Event.mask (e : Event) : BitVec 12 := BitVec.twoPow 12 e.bit

/-- The event a command of a unit sets (44_dispatcher R183). -/
def cmdEvent : UnitId → Event
  | .sq => .sqCmd
  | .pda => .pdaCmd
  | .spa => .spaCmd

/-- The fault causes (60_exceptions R221). -/
inductive Cause where
  | checksum
  | escape
  | oversize
  | runt
  | line
  | overrun
  | cmdArg
  | hostAccess
  deriving DecidableEq, Repr

/-- The cause codes (R221). -/
def Cause.code : Cause → BitVec 4
  | .checksum => 1
  | .escape => 2
  | .oversize => 3
  | .runt => 4
  | .line => 5
  | .overrun => 6
  | .cmdArg => 7
  | .hostAccess => 8

/-- The event bit of a cause (R221). -/
def Cause.event : Cause → Event
  | .checksum | .escape | .oversize | .runt => .frameErr
  | .line => .lineErr
  | .overrun => .overrun
  | .cmdArg => .cmdArg
  | .hostAccess => .hostErr

/-- The counter of a cause, incremented modulo 2^32 (R221, R36). -/
def Counters.countFault (cnt : Counters) : Cause → Counters
  | .checksum => { cnt with errChecksum := cnt.errChecksum + 1 }
  | .escape => { cnt with errEscape := cnt.errEscape + 1 }
  | .oversize => { cnt with errOversize := cnt.errOversize + 1 }
  | .runt => { cnt with errRunt := cnt.errRunt + 1 }
  | .line => { cnt with errLine := cnt.errLine + 1 }
  | .overrun => { cnt with errOverrun := cnt.errOverrun + 1 }
  | .cmdArg => { cnt with errCmdArg := cnt.errCmdArg + 1 }
  | .hostAccess => { cnt with errHost := cnt.errHost + 1 }

/-- `CTRL.EN` (R32). -/
def State.ctrlEn (s : State) : Bool := s.ctrl.getLsbD 0

/-- `CTRL.SQ_EN`, `CTRL.PDA_EN` and `CTRL.SPA_EN` (R32). -/
def State.enables (s : State) : Enables := ⟨s.ctrl.getLsbD 1, s.ctrl.getLsbD 2, s.ctrl.getLsbD 3⟩

/-- The value `CTRL` reads (R32). -/
def State.ctrlImage (s : State) : Word := s.ctrl.setWidth 32

/-- The value `EVENTS` reads (R34). -/
def State.eventsImage (s : State) : Word := s.events.setWidth 32

/-- The value `LAST_ERR` reads (R35). -/
def State.lastErrImage (s : State) : Word := s.lastErr.info ++ 0#12 ++ s.lastErr.cause

/-- The value `STATUS` reads (R33). -/
def State.statusImage (s : State) : Word :=
  0#8 ++ BitVec.ofNat 8 (min s.rxFifo.length 255) ++ BitVec.ofNat 8 s.clen ++ 0#2 ++ s.ss.code ++ s.ds.code
    ++ BitVec.ofBool (s.ds ≠ .stopped)

/-- The value `INV_u` reads (20_memory R75, 45_host R205). -/
def Inv.image (inv : Inv) : Word := inv.stop ++ inv.start ++ inv.line ++ 0#7 ++ BitVec.ofBool inv.valid

/-- The value `SPA_STATE` reads (45_host R207). -/
def SpaStatus.image (st : SpaStatus) : Word := 0#26 ++ st.heat.code ++ st.jets.code ++ st.spa.code

/-- The value `DIMS_u` reads: hardwired (R44). -/
def dimsImage : UnitId → Word
  | .sq => UnitId.sq.ackByte ++ UnitId.sq.addr ++ BitVec.ofNat 8 KeypadId.sq.rows ++ BitVec.ofNat 8 Config.width
  | .pda => UnitId.pda.ackByte ++ UnitId.pda.addr ++ BitVec.ofNat 8 KeypadId.pda.rows ++ BitVec.ofNat 8 Config.width
  | .spa => UnitId.spa.ackByte ++ UnitId.spa.addr ++ 0#16

end Sys2Proof.Machine
end

