-- ==== Sys2Proof/Machine/Operands.lean ====
section
/-! DEFINITION. How commands and host operations read their operands: the text of a line (42_keypad R146), the row map
(R147), the region of a scroll (R144), the spa text (43_spa R168) and mask (R167), the key index (45_host R202) and the
byte windows (20_memory R73, R75). -/

namespace Sys2Proof.Machine

/-- `s[0..len b) <- b`: the bytes beyond stay (00_scope R10, log 16). -/
def overwrite (s b : List Byte) : List Byte := b ++ s.drop b.length

/-- `b` and then zeros up to `n` bytes. -/
def zeroPad (n : Nat) (b : List Byte) : List Byte := b ++ List.replicate (n - b.length) 0

/-- `RowMap_u(x)` (42_keypad R147). -/
def rowMap : KeypadId → Byte → Byte
  | .sq, x => x
  | .pda, x => if x = 64 then 0 else if x = 130 then 2 else x

/-- The row a line's text makes (42_keypad R146): up to its first 0x00, cut to `W`, spaces on the right. -/
def lineRow (text : List Byte) : List Byte :=
  let t := (text.takeWhile (· ≠ 0x00)).take Config.width
  t ++ List.replicate (Config.width - t.length) SP

/-- Rows `[s, e)` shifted down by one, the top one blank (42_keypad R144, direction 0x01). -/
def scrollDown (rows : List (List Byte)) (s e : Nat) : List (List Byte) :=
  rows.take s ++ [blankRow] ++ (rows.drop s).take (e - s - 1) ++ rows.drop e

/-- Rows `[s, e)` shifted up by one, the bottom one blank (42_keypad R144, direction 0xFF). -/
def scrollUp (rows : List (List Byte)) (s e : Nat) : List (List Byte) :=
  rows.take s ++ (rows.drop (s + 1)).take (e - s - 1) ++ [blankRow] ++ rows.drop e

/-- The tri-state of a mask bit (43_spa R167). -/
def triOf (b : Bool) : TriState := if b then .on else .off

/-- The status map of a mask byte (43_spa R167): bit 4 spa, bit 0 jets, bit 3 heater. -/
def maskStatus (m : Byte) : SpaStatus := ⟨triOf (m.getLsbD 4), triOf (m.getLsbD 0), triOf (m.getLsbD 3)⟩

/-- `Match(off, pat)` (43_spa R168). -/
def matchAt (args : List Byte) (off : Nat) (pat : List Byte) : Bool :=
  decide (off + pat.length ≤ args.length) && (args.drop off).take pat.length == pat

/-- `PWROFF` (43_spa R168): " . . .". Character literals are ASCII (PRESUMED by the spec, R10, log 17). -/
def pwrOff : List Byte := [0x20, 0x2E, 0x20, 0x2E, 0x20, 0x2E]

/-- "... ..." (43_spa R168). -/
def pwrOffText : List Byte := [0x2E, 0x2E, 0x2E, 0x20, 0x2E, 0x2E, 0x2E]

/-- "0FF", with the digit zero (43_spa R168). -/
def zeroFF : List Byte := [0x30, 0x46, 0x46]

/-- "OFF H2O" (43_spa R168). -/
def offH2o : List Byte := [0x4F, 0x46, 0x46, 0x20, 0x48, 0x32, 0x4F]

/-- " SET" (43_spa R168). -/
def setSuffix : List Byte := [0x20, 0x53, 0x45, 0x54]

/-- " AIR" (43_spa R168). -/
def airSuffix : List Byte := [0x20, 0x41, 0x49, 0x52]

/-- " H2O" (43_spa R168). -/
def h2oSuffix : List Byte := [0x20, 0x48, 0x32, 0x4F]

/-- The text a text status shows, in the order of R168; `none` when the arguments are too short to hold one. -/
def statusText (p : Params) (args : List Byte) : Option (List Byte) :=
  if matchAt args p.spaPwroffOff pwrOff then some pwrOffText
  else if args.length < p.spaTxtOff + 3 then none
  else
    let t := (args.drop p.spaTxtOff).take 3
    if t = zeroFF then some offH2o
    else if matchAt args p.spaSetOff p.spaSetMark.bytes then some (t ++ setSuffix)
    else if matchAt args p.spaAirOff p.spaAirMark.bytes then some (t ++ airSuffix)
    else if matchAt args p.spaH2oOff p.spaH2oMark.bytes then some (t ++ h2oSuffix)
    else some t

/-- The key index of written data: `v[3:0]` (45_host R202, log 13). -/
def keyIndex (v : Word) : Nat := (v.extractLsb' 0 4).toNat

/-- `KEYMAP_u[i]` for a recognized index (45_host R202, R203). -/
def keyByte (p : Params) (u : UnitId) (i : Nat) : Option Byte :=
  match u with
  | .sq => p.keymapSq[i]?
  | .pda => p.keymapPda[i]?
  | .spa => p.keymapSpa[i]?

/-- A word of a byte window, packed little-endian: byte `k` of the window is `b k` (20_memory R73). -/
def windowWord (b : Nat → Byte) (j : Nat) : Word := b (4 * j + 3) ++ b (4 * j + 2) ++ b (4 * j + 1) ++ b (4 * j)

/-- Byte `k` of a `KSTAT_u` window (20_memory R75). -/
def Keypad.kstatByte (x : Keypad) (k : Nat) : Byte := if k < Config.maxArgs then x.kstat.getD k 0 else 0

/-- Byte `k` of a `DISP_u` window (20_memory R75): cell `k / W`, `k mod W`, or 0 past the display. -/
def Keypad.dispByte (x : Keypad) (rows k : Nat) : Byte :=
  if k < rows * Config.width then (x.disp.getD (k / Config.width) []).getD (k % Config.width) 0 else 0

/-- Byte `k` of the `SPA_TEXT` window (20_memory R75). -/
def Spa.textByte (x : Spa) (k : Nat) : Byte := if k < Config.spaTextMax then x.text.getD k 0 else 0

/-- `BYTE_NS` (00_scope R7): nanoseconds a character, rounded up (log 6). -/
def byteNs (p : Params) : Nat := (Config.charBits * 1000000000 + p.baud - 1) / p.baud

end Sys2Proof.Machine
end

