-- ==== Sys2Proof/Machine/Ops.lean ====
section
/-! DEFINITION. The named operations over the state that the meanings share: recording a fault (60_exceptions R222),
unit access, the reply (44_dispatcher R184), the end of an EXEC step (R183), and the host's accesses. -/

namespace Sys2Proof.Machine

/-- Sets an event bit (10_state R34). -/
def setEvent (e : Event) (s : State) : State := { s with events := s.events ||| e.mask }

/-- `raise Fault(cause, INFO = x)` (60_exceptions R222): taking an exception on this hardware. It saves nothing else
and the raising rule goes on, so there is no return from it (R224, R225). -/
def raiseFault (c : Cause) (info : BitVec 16) (s : State) : State :=
  { s with
    lastErr := ⟨c.code, info⟩
    cnt := s.cnt.countFault c
    events := s.events ||| c.event.mask }

/-- A keypad unit's state. -/
def State.keypad (s : State) : KeypadId → Keypad
  | .sq => s.sq
  | .pda => s.pda

/-- Replaces a keypad unit's state. -/
def setKeypad (k : KeypadId) (x : Keypad) (s : State) : State :=
  match k with
  | .sq => { s with sq := x }
  | .pda => { s with pda := x }

/-- `PENDING_u` (10_state R41). -/
def State.pending (s : State) : UnitId → Byte
  | .sq => s.sq.pending
  | .pda => s.pda.pending
  | .spa => s.spa.pending

/-- Writes `PENDING_u`. -/
def setPending (u : UnitId) (p : Byte) (s : State) : State :=
  match u with
  | .sq => { s with sq := { s.sq with pending := p } }
  | .pda => { s with pda := { s.pda with pending := p } }
  | .spa => { s with spa := { s.spa with pending := p } }

/-- `SEQ_u` (10_state R42). -/
def State.seq (s : State) : UnitId → Word
  | .sq => s.sq.seq
  | .pda => s.pda.seq
  | .spa => s.spa.seq

/-- `SEQ_u <- SEQ_u + 1 mod 2^32` (44_dispatcher R183). -/
def bumpSeq (u : UnitId) (s : State) : State :=
  match u with
  | .sq => { s with sq := { s.sq with seq := s.sq.seq + 1 } }
  | .pda => { s with pda := { s.pda with seq := s.pda.seq + 1 } }
  | .spa => { s with spa := { s.spa with seq := s.spa.seq + 1 } }

/-- `encode_reply(u, p)` (40_framecodec R118). -/
def encodeReply (u : UnitId) (p : Byte) (s : State) : State :=
  let b := encodeFrame Config.replyDest Config.replyCmd [u.ackByte, p]
  { s with txBuf := overwrite s.txBuf b, txLen := b.length, txPos := 0 }

/-- `Reply(u)` (44_dispatcher R184): samples and clears the pending byte, and builds the reply. -/
def reply (u : UnitId) (s : State) : State :=
  encodeReply u (s.pending u) (setPending u Config.neutral s)

/-- The end of every EXEC step for unit `u`: `Reply(u)`, then the common effects, then `DS <- GAP`
(44_dispatcher R183, R184). -/
def finishCommand (u : UnitId) (s : State) : State :=
  { setEvent (cmdEvent u) (bumpSeq u (reply u s)) with ds := .gap }

/-- `ArgFault()` (42_keypad R141): the INFO is read from the frame latch. -/
def argFault (s : State) : State := raiseFault .cmdArg (s.fDest ++ s.fCmd) s

/-- An unknown command is counted and marked (42_keypad R152, 43_spa R171). -/
def countUnknown (s : State) : State :=
  setEvent .unknownCmd { s with cnt := { s.cnt with unknownCmd := s.cnt.unknownCmd + 1 } }

/-- The argument bytes of the frame latch: `F_ARGS[0..F_NARGS)` (10_state R29). -/
def State.frameArgs (s : State) : List Byte := s.fArgs.take s.fNargs

/-- A host read returns `v` and has no other effect (20_memory R78). -/
def hostReturn (v : Word) (s : State) : State := { s with hostRdata := v }

/-- A write to `KEY_u` (45_host R202): an unrecognized index has no effect. -/
def writeKey (u : UnitId) (v : Word) (s : State) : State :=
  match keyByte s.par u (keyIndex v) with
  | some b => setPending u b s
  | none => s

/-- A read returns 0; a write returns nothing (20_memory R72, R76). -/
def returnZero (acc : HostAccess) (s : State) : State :=
  if acc.isWrite then s else hostReturn 0 s

end Sys2Proof.Machine
end

