-- ==== Sys2Proof/Machine/Frames.lean ====
section
/-! DEFINITION. The two frame rows that no unit's EXEC step runs: DISCARD (44_dispatcher R182) and ACK
(40_framecodec R118). -/

namespace Sys2Proof.Machine

/-- `DISCARD` (44_dispatcher R182, 30_encoding R102): an unmatched frame changes nothing; `DS` stays, no reply and no
fault. -/
def execDiscard (_dest _cmd : Byte) (_args : List Byte) (s : State) : Host.Outcome State Fault Refusal :=
  .next s

/-- `ACK` (40_framecodec R118): the reply encoder fills the transmit buffer. It runs only inside the EXEC step of a
command (44_dispatcher R184, log 15). -/
def execAck (u : UnitId) (p : Byte) (s : State) : Host.Outcome State Fault Refusal :=
  .next (encodeReply u p s)

end Sys2Proof.Machine
end

