-- ==== Sys2Proof/Machine/HostOps.lean ====
section
/-! DEFINITION. The host operations (spec/45_host_interface.md): one atomic access each. A read returns its value and
leaves all else as it was (20_memory R78). -/

namespace Sys2Proof.Machine

/-! ### The global registers -/

/-- `H_CTRL_WR` (45_host R201): the four storage bits; `v[31:4]` is ignored, and `DS` does not change. -/
def execHCtrlWr (v : Word) (s : State) : Host.Outcome State Fault Refusal :=
  .next { s with ctrl := v.setWidth 4 }

/-- `H_CTRL_RD` (10_state R32). -/
def execHCtrlRd (s : State) : Host.Outcome State Fault Refusal :=
  .next (hostReturn s.ctrlImage s)

/-- `H_STATUS_RD` (45_host R210, 10_state R33). -/
def execHStatusRd (s : State) : Host.Outcome State Fault Refusal :=
  .next (hostReturn s.statusImage s)

/-- `H_EVENTS_RD` (10_state R34). -/
def execHEventsRd (s : State) : Host.Outcome State Fault Refusal :=
  .next (hostReturn s.eventsImage s)

/-- `H_EVENTS_W1C` (45_host R209): `EVENTS & ~(v & 0xFFF)`. -/
def execHEventsW1c (v : Word) (s : State) : Host.Outcome State Fault Refusal :=
  .next { s with events := s.events &&& ~~~(v.setWidth 12) }

/-- `H_LAST_ERR_RD` (45_host R210, 10_state R35). -/
def execHLastErrRd (s : State) : Host.Outcome State Fault Refusal :=
  .next (hostReturn s.lastErrImage s)

/-- `H_CNT_FRAME_OK_RD` (45_host R210, 10_state R36). -/
def execHCntFrameOkRd (s : State) : Host.Outcome State Fault Refusal :=
  .next (hostReturn s.cnt.frameOk s)

/-- `H_CNT_ADDRESSED_RD` (45_host R210, 10_state R36). -/
def execHCntAddressedRd (s : State) : Host.Outcome State Fault Refusal :=
  .next (hostReturn s.cnt.addressed s)

/-- `H_CNT_ERR_CHECKSUM_RD` (45_host R210, 10_state R36). -/
def execHCntErrChecksumRd (s : State) : Host.Outcome State Fault Refusal :=
  .next (hostReturn s.cnt.errChecksum s)

/-- `H_CNT_ERR_ESCAPE_RD` (45_host R210, 10_state R36). -/
def execHCntErrEscapeRd (s : State) : Host.Outcome State Fault Refusal :=
  .next (hostReturn s.cnt.errEscape s)

/-- `H_CNT_ERR_OVERSIZE_RD` (45_host R210, 10_state R36). -/
def execHCntErrOversizeRd (s : State) : Host.Outcome State Fault Refusal :=
  .next (hostReturn s.cnt.errOversize s)

/-- `H_CNT_ERR_RUNT_RD` (45_host R210, 10_state R36). -/
def execHCntErrRuntRd (s : State) : Host.Outcome State Fault Refusal :=
  .next (hostReturn s.cnt.errRunt s)

/-- `H_CNT_ERR_LINE_RD` (45_host R210, 10_state R36). -/
def execHCntErrLineRd (s : State) : Host.Outcome State Fault Refusal :=
  .next (hostReturn s.cnt.errLine s)

/-- `H_CNT_ERR_OVERRUN_RD` (45_host R210, 10_state R36). -/
def execHCntErrOverrunRd (s : State) : Host.Outcome State Fault Refusal :=
  .next (hostReturn s.cnt.errOverrun s)

/-- `H_CNT_REPLY_SENT_RD` (45_host R210, 10_state R36). -/
def execHCntReplySentRd (s : State) : Host.Outcome State Fault Refusal :=
  .next (hostReturn s.cnt.replySent s)

/-- `H_CNT_UNKNOWN_CMD_RD` (45_host R210, 10_state R36). -/
def execHCntUnknownCmdRd (s : State) : Host.Outcome State Fault Refusal :=
  .next (hostReturn s.cnt.unknownCmd s)

/-- `H_CNT_ERR_CMD_ARG_RD` (45_host R210, 10_state R36). -/
def execHCntErrCmdArgRd (s : State) : Host.Outcome State Fault Refusal :=
  .next (hostReturn s.cnt.errCmdArg s)

/-- `H_CNT_ERR_HOST_RD` (45_host R210, 10_state R36). -/
def execHCntErrHostRd (s : State) : Host.Outcome State Fault Refusal :=
  .next (hostReturn s.cnt.errHost s)

/-! ### Unit SQ -/

/-- `H_KEY_WR_SQ` (45_host R202). -/
def execHKeyWrSq (v : Word) (s : State) : Host.Outcome State Fault Refusal :=
  .next (writeKey .sq v s)

/-- `H_PENDING_RD_SQ` (45_host R211). -/
def execHPendingRdSq (s : State) : Host.Outcome State Fault Refusal :=
  .next (hostReturn (s.sq.pending.setWidth 32) s)

/-- `H_INV_RD_SQ` (45_host R205). -/
def execHInvRdSq (s : State) : Host.Outcome State Fault Refusal :=
  .next (hostReturn s.sq.inv.image s)

/-- `H_KSTAT_LEN_RD_SQ` (45_host R206): bits 7 to 0. -/
def execHKstatLenRdSq (s : State) : Host.Outcome State Fault Refusal :=
  .next (hostReturn ((BitVec.ofNat 8 s.sq.kstatLen).setWidth 32) s)

/-- `H_DIMS_RD_SQ` (45_host R212, 10_state R44). -/
def execHDimsRdSq (s : State) : Host.Outcome State Fault Refusal :=
  .next (hostReturn (dimsImage .sq) s)

/-- `H_SEQ_RD_SQ` (45_host R212). -/
def execHSeqRdSq (s : State) : Host.Outcome State Fault Refusal :=
  .next (hostReturn s.sq.seq s)

/-- `H_KSTAT_RD_SQ` (45_host R206): word `j` of the window. -/
def execHKstatRdSq (j : BitVec 5) (s : State) : Host.Outcome State Fault Refusal :=
  .next (hostReturn (windowWord s.sq.kstatByte j.toNat) s)

/-- `H_DISP_RD_SQ` (45_host R204): word `j` of the window. -/
def execHDispRdSq (j : BitVec 6) (s : State) : Host.Outcome State Fault Refusal :=
  .next (hostReturn (windowWord (s.sq.dispByte KeypadId.sq.rows) j.toNat) s)

/-! ### Unit PDA -/

/-- `H_KEY_WR_PDA` (45_host R202). -/
def execHKeyWrPda (v : Word) (s : State) : Host.Outcome State Fault Refusal :=
  .next (writeKey .pda v s)

/-- `H_PENDING_RD_PDA` (45_host R211). -/
def execHPendingRdPda (s : State) : Host.Outcome State Fault Refusal :=
  .next (hostReturn (s.pda.pending.setWidth 32) s)

/-- `H_INV_RD_PDA` (45_host R205). -/
def execHInvRdPda (s : State) : Host.Outcome State Fault Refusal :=
  .next (hostReturn s.pda.inv.image s)

/-- `H_KSTAT_LEN_RD_PDA` (45_host R206): bits 7 to 0. -/
def execHKstatLenRdPda (s : State) : Host.Outcome State Fault Refusal :=
  .next (hostReturn ((BitVec.ofNat 8 s.pda.kstatLen).setWidth 32) s)

/-- `H_DIMS_RD_PDA` (45_host R212, 10_state R44). -/
def execHDimsRdPda (s : State) : Host.Outcome State Fault Refusal :=
  .next (hostReturn (dimsImage .pda) s)

/-- `H_SEQ_RD_PDA` (45_host R212). -/
def execHSeqRdPda (s : State) : Host.Outcome State Fault Refusal :=
  .next (hostReturn s.pda.seq s)

/-- `H_KSTAT_RD_PDA` (45_host R206): word `j` of the window. -/
def execHKstatRdPda (j : BitVec 5) (s : State) : Host.Outcome State Fault Refusal :=
  .next (hostReturn (windowWord s.pda.kstatByte j.toNat) s)

/-- `H_DISP_RD_PDA` (45_host R204): word `j` of the window. -/
def execHDispRdPda (j : BitVec 6) (s : State) : Host.Outcome State Fault Refusal :=
  .next (hostReturn (windowWord (s.pda.dispByte KeypadId.pda.rows) j.toNat) s)

/-! ### Unit SPA -/

/-- `H_KEY_WR_SPA` (45_host R202). -/
def execHKeyWrSpa (v : Word) (s : State) : Host.Outcome State Fault Refusal :=
  .next (writeKey .spa v s)

/-- `H_PENDING_RD_SPA` (45_host R211). -/
def execHPendingRdSpa (s : State) : Host.Outcome State Fault Refusal :=
  .next (hostReturn (s.spa.pending.setWidth 32) s)

/-- `H_DIMS_RD_SPA` (45_host R212, 10_state R44). -/
def execHDimsRdSpa (s : State) : Host.Outcome State Fault Refusal :=
  .next (hostReturn (dimsImage .spa) s)

/-- `H_SEQ_RD_SPA` (45_host R212). -/
def execHSeqRdSpa (s : State) : Host.Outcome State Fault Refusal :=
  .next (hostReturn s.spa.seq s)

/-- `H_SPA_STATE_RD` (45_host R207). -/
def execHSpaStateRd (s : State) : Host.Outcome State Fault Refusal :=
  .next (hostReturn s.spa.st.image s)

/-- `H_SPA_TEXT_LEN_RD` (45_host R208): bits 7 to 0. -/
def execHSpaTextLenRd (s : State) : Host.Outcome State Fault Refusal :=
  .next (hostReturn ((BitVec.ofNat 8 s.spa.textLen).setWidth 32) s)

/-- `H_SPA_TEXT_RD` (45_host R208): word `j` of the window. -/
def execHSpaTextRd (j : BitVec 1) (s : State) : Host.Outcome State Fault Refusal :=
  .next (hostReturn (windowWord s.spa.textByte j.toNat) s)

/-! ### Accesses that select no register -/

/-- `H_MISALIGNED` (20_memory R72): no effect, a read returns 0, and then `HOST_ACCESS` is recorded. -/
def execHMisaligned (acc : HostAccess) (s : State) : Host.Outcome State Fault Refusal :=
  .next (raiseFault .hostAccess (acc.addr.setWidth 16) (returnZero acc s))

/-- `H_UNMAPPED` (20_memory R76): a read returns 0, a write is ignored, and no fault is recorded. -/
def execHUnmapped (acc : HostAccess) (s : State) : Host.Outcome State Fault Refusal :=
  .next (returnZero acc s)

end Sys2Proof.Machine
end

