-- ==== Sys2Proof/Machine/Keypads.lean ====
section
/-! DEFINITION. The keypad commands (spec/42_keypad_commands.md): one operation per command, parameterized by the unit
(R140), and one meaning per instruction. Each meaning is the whole EXEC step (44_dispatcher R183, log 15). -/

namespace Sys2Proof.Machine

/-! ### The commands -/

/-- `U_STATUS` (R149). -/
def keypadStatus (k : KeypadId) (args : List Byte) (s : State) : State :=
  setKeypad k { s.keypad k with kstatLen := args.length, kstat := zeroPad Config.maxArgs args } s

/-- `U_WRITE` (R146). -/
def keypadWrite (k : KeypadId) (args : List Byte) (s : State) : State :=
  match args with
  | [] => argFault s
  | row :: text =>
    let r := (rowMap k row).toNat
    if r < k.rows then setKeypad k { s.keypad k with disp := (s.keypad k).disp.set r (lineRow text) } s
    else argFault s

/-- `U_INVLINE` (R150). -/
def keypadInvline (k : KeypadId) (args : List Byte) (s : State) : State :=
  match args with
  | [] => argFault s
  | l :: _ =>
    if l.toNat < k.rows then
      setKeypad k { s.keypad k with inv := ⟨true, l, 0, BitVec.ofNat 8 Config.width⟩ } s
    else argFault s

/-- `U_CLEAR` (R143). -/
def keypadClear (k : KeypadId) (s : State) : State :=
  setKeypad k { s.keypad k with disp := List.replicate k.rows blankRow, inv := Inv.none } s

/-- `U_SCROLL` (R144): the count, then the direction, then the region. -/
def keypadScroll (k : KeypadId) (args : List Byte) (s : State) : State :=
  match args with
  | st :: en :: d :: _ =>
    if d ≠ 0x01 ∧ d ≠ 0xFF then s
    else if ¬ (st.toNat < en.toNat ∧ en.toNat ≤ k.rows) then argFault s
    else
      let x := s.keypad k
      if d = 0x01 then setKeypad k { x with disp := scrollDown x.disp st.toNat en.toNat } s
      else setKeypad k { x with disp := scrollUp x.disp st.toNat en.toNat } s
  | [_, _] => argFault s
  | [_] => argFault s
  | [] => argFault s

/-- `U_INVRANGE` (R151). -/
def keypadInvrange (k : KeypadId) (args : List Byte) (s : State) : State :=
  match args with
  | l :: st :: en :: _ =>
    if k.rows ≤ l.toNat ∨ ¬ (st.toNat < en.toNat ∧ en.toNat ≤ Config.width) then argFault s
    else setKeypad k { s.keypad k with inv := ⟨true, l, st, en⟩ } s
  | [_, _] => argFault s
  | [_] => argFault s
  | [] => argFault s

/-! ### Unit SQ -/

/-- `SQ_PROBE` (R142): no state change, then the reply. -/
def execSqProbe (_args : List Byte) (s : State) : Host.Outcome State Fault Refusal :=
  .next (finishCommand .sq s)

/-- `SQ_STATUS` (R149). -/
def execSqStatus (args : List Byte) (s : State) : Host.Outcome State Fault Refusal :=
  .next (finishCommand .sq (keypadStatus .sq args s))

/-- `SQ_WRITE` (R146). -/
def execSqWrite (args : List Byte) (s : State) : Host.Outcome State Fault Refusal :=
  .next (finishCommand .sq (keypadWrite .sq args s))

/-- `SQ_HANDSHAKE` (R148): no state change, then the ordinary reply. -/
def execSqHandshake (_args : List Byte) (s : State) : Host.Outcome State Fault Refusal :=
  .next (finishCommand .sq s)

/-- `SQ_INVLINE` (R150). -/
def execSqInvline (args : List Byte) (s : State) : Host.Outcome State Fault Refusal :=
  .next (finishCommand .sq (keypadInvline .sq args s))

/-- `SQ_CLEAR` (R143): the clear flag is not read. -/
def execSqClear (_args : List Byte) (s : State) : Host.Outcome State Fault Refusal :=
  .next (finishCommand .sq (keypadClear .sq s))

/-- `SQ_SCROLL` (R144). -/
def execSqScroll (args : List Byte) (s : State) : Host.Outcome State Fault Refusal :=
  .next (finishCommand .sq (keypadScroll .sq args s))

/-- `SQ_INVRANGE` (R151). -/
def execSqInvrange (args : List Byte) (s : State) : Host.Outcome State Fault Refusal :=
  .next (finishCommand .sq (keypadInvrange .sq args s))

/-- `SQ_UNKNOWN` (R152). -/
def execSqUnknown (_cmd : Byte) (_args : List Byte) (s : State) : Host.Outcome State Fault Refusal :=
  .next (finishCommand .sq (countUnknown s))

/-! ### Unit PDA -/

/-- `PDA_PROBE` (R142): no state change, then the reply. -/
def execPdaProbe (_args : List Byte) (s : State) : Host.Outcome State Fault Refusal :=
  .next (finishCommand .pda s)

/-- `PDA_STATUS` (R149). -/
def execPdaStatus (args : List Byte) (s : State) : Host.Outcome State Fault Refusal :=
  .next (finishCommand .pda (keypadStatus .pda args s))

/-- `PDA_WRITE` (R146). -/
def execPdaWrite (args : List Byte) (s : State) : Host.Outcome State Fault Refusal :=
  .next (finishCommand .pda (keypadWrite .pda args s))

/-- `PDA_HANDSHAKE` (R148): no state change, then the ordinary reply. -/
def execPdaHandshake (_args : List Byte) (s : State) : Host.Outcome State Fault Refusal :=
  .next (finishCommand .pda s)

/-- `PDA_INVLINE` (R150): the line byte is not remapped. -/
def execPdaInvline (args : List Byte) (s : State) : Host.Outcome State Fault Refusal :=
  .next (finishCommand .pda (keypadInvline .pda args s))

/-- `PDA_CLEAR` (R143): the clear flag is not read. -/
def execPdaClear (_args : List Byte) (s : State) : Host.Outcome State Fault Refusal :=
  .next (finishCommand .pda (keypadClear .pda s))

/-- `PDA_SCROLL` (R144). -/
def execPdaScroll (args : List Byte) (s : State) : Host.Outcome State Fault Refusal :=
  .next (finishCommand .pda (keypadScroll .pda args s))

/-- `PDA_INVRANGE` (R151). -/
def execPdaInvrange (args : List Byte) (s : State) : Host.Outcome State Fault Refusal :=
  .next (finishCommand .pda (keypadInvrange .pda args s))

/-- `PDA_UNKNOWN` (R152). -/
def execPdaUnknown (_cmd : Byte) (_args : List Byte) (s : State) : Host.Outcome State Fault Refusal :=
  .next (finishCommand .pda (countUnknown s))

end Sys2Proof.Machine
end

