-- ==== Sys2Proof/Machine/SpaUnit.lean ====
section
/-! DEFINITION. The spa commands (spec/43_spa_commands.md). Each meaning is the whole EXEC step (44_dispatcher R183,
log 15). -/

namespace Sys2Proof.Machine

/-- `SetText(s)` (R168). -/
def setText (t : List Byte) (s : State) : State :=
  { s with spa := { s.spa with textLen := t.length, text := zeroPad Config.spaTextMax t } }

/-- `SPA_BSTATUS` (R167): a frame with no argument byte is the decode fault. -/
def spaBstatus (args : List Byte) (s : State) : State :=
  match args with
  | [] => argFault { s with spa := { s.spa with st := ⟨.unknown, .unknown, .unknown⟩ } }
  | m :: _ => { s with spa := { s.spa with st := maskStatus m } }

/-- `SPA_TSTATUS` (R168). -/
def spaTstatus (args : List Byte) (s : State) : State :=
  match statusText s.par args with
  | some t => setText t s
  | none => argFault (setText [] s)

/-- `SPA_PROBE` (R166): no state change, then the reply. -/
def execSpaProbe (_args : List Byte) (s : State) : Host.Outcome State Fault Refusal :=
  .next (finishCommand .spa s)

/-- `SPA_BSTATUS` (R167). -/
def execSpaBstatus (args : List Byte) (s : State) : Host.Outcome State Fault Refusal :=
  .next (finishCommand .spa (spaBstatus args s))

/-- `SPA_TSTATUS` (R168). -/
def execSpaTstatus (args : List Byte) (s : State) : Host.Outcome State Fault Refusal :=
  .next (finishCommand .spa (spaTstatus args s))

/-- `SPA_CHREQ` (R170): its arguments are read by nothing. -/
def execSpaChreq (_args : List Byte) (s : State) : Host.Outcome State Fault Refusal :=
  .next (finishCommand .spa s)

/-- `SPA_UNKNOWN` (R171). -/
def execSpaUnknown (_cmd : Byte) (_args : List Byte) (s : State) : Host.Outcome State Fault Refusal :=
  .next (finishCommand .spa (countUnknown s))

end Sys2Proof.Machine
end

