-- ==== Sys2Proof/Machine/Dispatch.lean ====
section
/-! DEFINITION. The one match over the instructions: each arm one call of its meaning. -/

namespace Sys2Proof.Machine

def exec (i : Instr) (s : State) : Host.Outcome State Fault Refusal :=
  match i with
  | .sqProbe args => Sys2Proof.Machine.execSqProbe args s
  | .sqStatus args => Sys2Proof.Machine.execSqStatus args s
  | .sqWrite args => Sys2Proof.Machine.execSqWrite args s
  | .sqHandshake args => Sys2Proof.Machine.execSqHandshake args s
  | .sqInvline args => Sys2Proof.Machine.execSqInvline args s
  | .sqClear args => Sys2Proof.Machine.execSqClear args s
  | .sqScroll args => Sys2Proof.Machine.execSqScroll args s
  | .sqInvrange args => Sys2Proof.Machine.execSqInvrange args s
  | .sqUnknown cmd args => Sys2Proof.Machine.execSqUnknown cmd args s
  | .pdaProbe args => Sys2Proof.Machine.execPdaProbe args s
  | .pdaStatus args => Sys2Proof.Machine.execPdaStatus args s
  | .pdaWrite args => Sys2Proof.Machine.execPdaWrite args s
  | .pdaHandshake args => Sys2Proof.Machine.execPdaHandshake args s
  | .pdaInvline args => Sys2Proof.Machine.execPdaInvline args s
  | .pdaClear args => Sys2Proof.Machine.execPdaClear args s
  | .pdaScroll args => Sys2Proof.Machine.execPdaScroll args s
  | .pdaInvrange args => Sys2Proof.Machine.execPdaInvrange args s
  | .pdaUnknown cmd args => Sys2Proof.Machine.execPdaUnknown cmd args s
  | .spaProbe args => Sys2Proof.Machine.execSpaProbe args s
  | .spaBstatus args => Sys2Proof.Machine.execSpaBstatus args s
  | .spaTstatus args => Sys2Proof.Machine.execSpaTstatus args s
  | .spaChreq args => Sys2Proof.Machine.execSpaChreq args s
  | .spaUnknown cmd args => Sys2Proof.Machine.execSpaUnknown cmd args s
  | .discard dest cmd args => Sys2Proof.Machine.execDiscard dest cmd args s
  | .ack u p => Sys2Proof.Machine.execAck u p s
  | .hCtrlWr v => Sys2Proof.Machine.execHCtrlWr v s
  | .hCtrlRd => Sys2Proof.Machine.execHCtrlRd s
  | .hStatusRd => Sys2Proof.Machine.execHStatusRd s
  | .hEventsRd => Sys2Proof.Machine.execHEventsRd s
  | .hEventsW1c v => Sys2Proof.Machine.execHEventsW1c v s
  | .hLastErrRd => Sys2Proof.Machine.execHLastErrRd s
  | .hCntFrameOkRd => Sys2Proof.Machine.execHCntFrameOkRd s
  | .hCntAddressedRd => Sys2Proof.Machine.execHCntAddressedRd s
  | .hCntErrChecksumRd => Sys2Proof.Machine.execHCntErrChecksumRd s
  | .hCntErrEscapeRd => Sys2Proof.Machine.execHCntErrEscapeRd s
  | .hCntErrOversizeRd => Sys2Proof.Machine.execHCntErrOversizeRd s
  | .hCntErrRuntRd => Sys2Proof.Machine.execHCntErrRuntRd s
  | .hCntErrLineRd => Sys2Proof.Machine.execHCntErrLineRd s
  | .hCntErrOverrunRd => Sys2Proof.Machine.execHCntErrOverrunRd s
  | .hCntReplySentRd => Sys2Proof.Machine.execHCntReplySentRd s
  | .hCntUnknownCmdRd => Sys2Proof.Machine.execHCntUnknownCmdRd s
  | .hCntErrCmdArgRd => Sys2Proof.Machine.execHCntErrCmdArgRd s
  | .hCntErrHostRd => Sys2Proof.Machine.execHCntErrHostRd s
  | .hKeyWrSq v => Sys2Proof.Machine.execHKeyWrSq v s
  | .hPendingRdSq => Sys2Proof.Machine.execHPendingRdSq s
  | .hInvRdSq => Sys2Proof.Machine.execHInvRdSq s
  | .hKstatLenRdSq => Sys2Proof.Machine.execHKstatLenRdSq s
  | .hDimsRdSq => Sys2Proof.Machine.execHDimsRdSq s
  | .hSeqRdSq => Sys2Proof.Machine.execHSeqRdSq s
  | .hKstatRdSq j => Sys2Proof.Machine.execHKstatRdSq j s
  | .hDispRdSq j => Sys2Proof.Machine.execHDispRdSq j s
  | .hKeyWrPda v => Sys2Proof.Machine.execHKeyWrPda v s
  | .hPendingRdPda => Sys2Proof.Machine.execHPendingRdPda s
  | .hInvRdPda => Sys2Proof.Machine.execHInvRdPda s
  | .hKstatLenRdPda => Sys2Proof.Machine.execHKstatLenRdPda s
  | .hDimsRdPda => Sys2Proof.Machine.execHDimsRdPda s
  | .hSeqRdPda => Sys2Proof.Machine.execHSeqRdPda s
  | .hKstatRdPda j => Sys2Proof.Machine.execHKstatRdPda j s
  | .hDispRdPda j => Sys2Proof.Machine.execHDispRdPda j s
  | .hKeyWrSpa v => Sys2Proof.Machine.execHKeyWrSpa v s
  | .hPendingRdSpa => Sys2Proof.Machine.execHPendingRdSpa s
  | .hDimsRdSpa => Sys2Proof.Machine.execHDimsRdSpa s
  | .hSeqRdSpa => Sys2Proof.Machine.execHSeqRdSpa s
  | .hSpaStateRd => Sys2Proof.Machine.execHSpaStateRd s
  | .hSpaTextLenRd => Sys2Proof.Machine.execHSpaTextLenRd s
  | .hSpaTextRd j => Sys2Proof.Machine.execHSpaTextRd j s
  | .hMisaligned acc => Sys2Proof.Machine.execHMisaligned acc s
  | .hUnmapped acc => Sys2Proof.Machine.execHUnmapped acc s

end Sys2Proof.Machine
end

