-- ==== Sys2Proof/Machine/Receive.lean ====
section
/-! DEFINITION. The receive path, the byte synchronizer and the frame validator (spec/41_busreader.md). -/

namespace Sys2Proof.Machine

/-- The arrival step of LINE (R121). -/
def arrive (v : Byte) (err : Bool) (s : State) : State :=
  if s.ds = .stopped ∨ s.de then s
  else if err then raiseFault .line (v.setWidth 16) s
  else if s.rxFifo.length = s.par.rxFifoDepth then raiseFault .overrun (v.setWidth 16) s
  else { s with rxFifo := s.rxFifo ++ [v] }

/-- The content accumulated so far: `CBUF[0..CLEN)` (10_state R25). -/
def State.content (s : State) : List Byte := s.cbuf.take s.clen

/-- `Store(x)` (R127). -/
def store (x : Byte) (s : State) : State :=
  if s.clen = Config.maxContent then { raiseFault .oversize 0 s with ss := .hunt, clen := 0 }
  else { s with cbuf := s.cbuf.set s.clen x, clen := s.clen + 1, ss := .acc }

/-- A pending `DLE` followed by a byte other than `NUL` and `ETX` (R128, last three arms). -/
def badEscape (b : Byte) (s : State) : State :=
  { raiseFault .escape (b.setWidth 16) s with
    ss := if b = STX then .acc else if b = DLE then .huntDle else .hunt
    clen := 0 }

/-- A validated frame writes the frame latch, is counted, and sets the gap reference (R129, R131). -/
def latch (s : State) : State :=
  let f := contentFrame s.content
  setEvent .frameOk
    { s with
      fDest := f.dest
      fCmd := f.cmd
      fNargs := f.args.length
      fArgs := overwrite s.fArgs f.args
      cnt := { s.cnt with frameOk := s.cnt.frameOk + 1 }
      tRef := s.now }

/-- `Validate()` (R129), the runt check first, and whether the frame is valid. Every path leaves `HUNT` and `CLEN` 0
(R130). `Dispatch()` follows in the same step (Engine.lean). -/
def validate (s : State) : State × Bool :=
  let c := s.content
  if c.length < 3 then ({ raiseFault .runt (BitVec.ofNat 16 c.length) s with ss := .hunt, clen := 0 }, false)
  else if contentCs c ≠ contentLast c then
    ({ raiseFault .checksum (contentCs c ++ contentLast c) s with ss := .hunt, clen := 0 }, false)
  else ({ latch s with ss := .hunt, clen := 0 }, true)

/-- The synchronizer's transition on the byte `b` (R124 to R128), and whether it validated a frame. -/
def consume (b : Byte) (s : State) : State × Bool :=
  match s.ss with
  | .hunt => ({ s with ss := if b = DLE then .huntDle else .hunt }, false)
  | .huntDle =>
    if b = STX then ({ s with ss := .acc, clen := 0 }, false)
    else ({ s with ss := if b = DLE then .huntDle else .hunt }, false)
  | .acc => if b = DLE then ({ s with ss := .accDle }, false) else (store b s, false)
  | .accDle =>
    if b = NUL then (store DLE s, false)
    else if b = ETX then validate s
    else (badEscape b s, false)

end Sys2Proof.Machine
end

