-- ==== Sys2Proof/Machine/Engine.lean ====
section
/-! DEFINITION. The dispatch FSM, the response-timing controller, the transmitter (spec/44_dispatcher.md), the reset
input (70_reset R250) and the choice of the next move. -/

namespace Sys2Proof.Machine

/-- The matched arm of `Dispatch()` (R182). -/
def accept (u : UnitId) (s : State) : State :=
  { s with
    fUnit := u
    cnt := { s.cnt with addressed := s.cnt.addressed + 1 }
    ds := .exec }

/-- `Dispatch()` (R182): the enables are sampled here, once a frame (R191). An unmatched frame is the instruction
DISCARD. -/
def dispatchFrame (s : State) : Host.Outcome State Fault Refusal :=
  match unitFor s.enables s.fDest with
  | some u => .next (accept u s)
  | none => exec (.discard s.fDest s.fCmd s.frameArgs) s

/-- The consumption step (41_busreader R123) on the byte `b`, already popped. -/
def consumeStep (b : Byte) (s : State) : Host.Outcome State Fault Refusal :=
  let r := consume b s
  if r.2 then dispatchFrame r.1 else .next r.1

/-- The start step (R181). -/
def startEngine (s : State) : State :=
  { s with ss := .hunt, clen := 0, rxFifo := [], ds := .recv }

/-- The stop step (R190). -/
def stopEngine (s : State) : State :=
  { setEvent .stopped s with
    ss := .hunt
    clen := 0
    rxFifo := []
    txLen := 0
    txPos := 0
    ds := .stopped }

/-- The gap has elapsed (R185, R186). -/
def gapElapsed (s : State) : Bool := s.tRef + Config.tGap ≤ s.now

/-- The reply start step (R186, R187). -/
def startReply (s : State) : State :=
  { s with
    txT0 := s.now
    de := true
    reN := true
    ds := .tx
    lineOut := s.lineOut ++ [.driver s.now true] }

/-- The transmission of one character (R188). -/
def emitChar (s : State) : State :=
  { s with
    txPos := s.txPos + 1
    lineOut := s.lineOut ++ [.char (s.txT0 + s.txPos * byteNs s.par) (s.txBuf.getD s.txPos 0)] }

/-- Characters sent one after the other from index `i` of a reply that starts at `t0`, with their start times (R188). -/
def charsFrom (t0 byte : Nat) : Nat → List Byte → List LineOut
  | _, [] => []
  | i, v :: b => .char (t0 + i * byte) v :: charsFrom t0 byte (i + 1) b

/-- The characters of the reply that no step has emitted yet. Their times are fixed by `TX_T0` alone (R188). -/
def State.unsent (s : State) : List LineOut :=
  charsFrom s.txT0 (byteNs s.par) s.txPos ((s.txBuf.take s.txLen).drop s.txPos)

/-- An entry of the trace that is whole on the line at time `now`: a character is if the interval R188 gives it, `byte`
nanoseconds long, is over (log 22). -/
def LineOut.ended (byte now : Nat) : LineOut → Bool
  | .driver _ _ => true
  | .char t _ => t + byte ≤ now

/-- When the last character of the reply ends (R189). -/
def replyEnd (s : State) : Nat := s.txT0 + s.txLen * byteNs s.par

/-- The reply end step (R189). -/
def endReply (s : State) : State :=
  setEvent .replySent
    { s with
      de := false
      reN := false
      txLen := 0
      txPos := 0
      cnt := { s.cnt with replySent := s.cnt.replySent + 1 }
      ds := .recv
      lineOut := s.lineOut ++ [.driver s.now false] }

/-- The instruction of the frame latch, which the EXEC step runs (R183). -/
def State.latched (s : State) : Instr := commandOf s.fUnit s.fCmd s.frameArgs

/-- The ENGINE's step in each state (R180). Where none is enabled the state stays as it is (log 3). -/
def engineStep (s : State) : Host.Outcome State Fault Refusal :=
  match s.ds with
  | .stopped => .next (if s.ctrlEn then startEngine s else s)
  | .recv =>
    if s.ctrlEn then
      match s.rxFifo with
      | [] => .next s
      | b :: rest => consumeStep b { s with rxFifo := rest }
    else .next (stopEngine s)
  | .exec => exec s.latched s
  | .gap => .next (if s.ctrlEn then (if gapElapsed s then startReply s else s) else stopEngine s)
  | .tx =>
    .next (if s.txPos < s.txLen then emitChar s else if replyEnd s ≤ s.now then endReply s else s)

/-- The trace of a reply that a reset cuts off (70_reset R252): of the characters that `TX_T0` fixes, emitted by a step or
not, those that have ended by the reset, and then the driver's edge. The rest is not sent (log 22). -/
def State.cutLine (s : State) : List LineOut :=
  (s.lineOut ++ s.unsent).filter (·.ended (byteNs s.par) s.now) ++ [.driver s.now false]

/-- The reset input (70_reset R250, R252, R262): every piece of the block's state takes its reset value at once, the
driver is off, and the rest of a reply on the line is lost. What lies outside the block stays (log 8). -/
def applyReset (s : State) : State :=
  { State.reset with
    now := s.now
    schedule := s.schedule
    hostRdata := s.hostRdata
    lineOut := if s.de then s.cutLine else s.lineOut
    par := s.par }

/-- The time the block waits for when it can do nothing before it (R186, R189); now, if there is none. -/
def waitsFor (s : State) : Nat :=
  match s.ds with
  | .gap => s.tRef + Config.tGap
  | .tx => replyEnd s
  | .stopped | .recv | .exec => s.now

/-- ENGINE has an enabled step (R180, R181, R183, R186, R188 to R190, 41_busreader R123). A run has ended, in the sense
of 00_scope R17, where it has none. R17's list of those states has no TX, but in TX, between the last character's step and
the reply's end, no step is enabled either: the model follows R17's clause and not its list (DESIGN CHOICE, log 23). -/
def engineEnabled (s : State) : Bool :=
  match s.ds with
  | .stopped => s.ctrlEn
  | .recv => !s.ctrlEn || !s.rxFifo.isEmpty
  | .exec => true
  | .gap => !s.ctrlEn || gapElapsed s
  | .tx => decide (s.txPos < s.txLen) || decide (replyEnd s ≤ s.now)

/-- The move taken when the schedule is empty: ENGINE if it has an enabled step, else TIME up to what the block waits
for (DESIGN CHOICE, log 2). -/
def idleMove (s : State) : Move :=
  if engineEnabled s then .engine else .time (waitsFor s - s.now)

/-- One move (00_scope R15, 20_memory R80). -/
def runMove (m : Move) (s : State) : Host.Outcome State Fault Refusal :=
  match m with
  | .line v err => .next (arrive v err s)
  | .engine => engineStep s
  | .host acc => exec (accessInstr acc) s
  | .time dt => .next { s with now := s.now + dt }
  | .reset => .next (applyReset s)

/-! ### Putting an instruction where the next step fetches it -/

/-- Loads the frame latch (10_state R29). -/
def loadLatch (u : UnitId) (f : Frame) (s : State) : State :=
  { s with
    fDest := f.dest
    fCmd := f.cmd
    fNargs := f.args.length
    fArgs := overwrite s.fArgs f.args
    fUnit := u }

/-- The state at whose next step ENGINE runs the command of unit `u` in the latch. -/
def atExec (u : UnitId) (f : Frame) (s : State) : State :=
  { loadLatch u f s with ds := .exec, schedule := .engine :: s.schedule }

/-- The state at whose next step ENGINE consumes the `ETX` that validates the frame. -/
def atTrailer (f : Frame) (s : State) : State :=
  let c := frameContent f.dest f.cmd f.args
  { s with
    ds := .recv
    ctrl := s.ctrl ||| 1
    ss := .accDle
    cbuf := overwrite s.cbuf c
    clen := c.length
    rxFifo := ETX :: s.rxFifo
    schedule := .engine :: s.schedule }

/-- The state whose very next step fetches and runs `i` (log 15). ACK is never fetched: the next step is the probe of
its unit, whose whole effect is this reply. -/
def State.withInstr (s : State) (i : Instr) : State :=
  match i.message with
  | .access acc => { s with schedule := .host acc :: s.schedule }
  | .frame f =>
    match i.unit? with
    | some u => atExec u f s
    | none => atTrailer f s
  | .reply f =>
    match unitOfAck (f.args.getD 0 0) with
    | some u => atExec u ⟨u.addr, 0x00, []⟩ (setPending u (f.args.getD 1 0) s)
    | none => s

end Sys2Proof.Machine
end

