-- ==== Sys2Proof/Machine/Step.lean ====
section
/-! DEFINITION. One step: the next move of the schedule, or the one an empty schedule leaves (logs 1 and 2). -/

namespace Sys2Proof.Machine

/-- One atomic step of one agent (20_memory R80, R82). -/
def step (s : State) : Host.Outcome State Fault Refusal :=
  match s.schedule with
  | [] => runMove (idleMove s) s
  | m :: rest => runMove m { s with schedule := rest }

/-- The state with the table's word where the next step fetches its instruction (log 15). -/
def State.withFetchWord (s : State) (nbits w : Nat) : State :=
  match decodeTableWord nbits w with
  | some i => s.withInstr i
  | none => s

end Sys2Proof.Machine
end

