-- ==== Sys2Proof/Safety.lean ====
section
/-! DEFINITION. What a safe run is, and the well-formed states: the invariants that spec/10_state.md section 7 and the
register descriptions give, in the terms the statements use. -/

namespace Sys2Proof.Machine

/-- The move the next step takes (logs 1 and 2). -/
def State.nextMove (s : State) : Move :=
  match s.schedule with
  | [] => idleMove s
  | m :: _ => m

/-- The state with the next move taken off the schedule. -/
def State.popped (s : State) : State := { s with schedule := s.schedule.tail }

/-- A run that never stops: every number of steps has a next state (60_exceptions R225). -/
def Safe (s : State) : Prop := ∀ n, ∃ t, Host.Core.run core n s = .next t

/-- The next step is the EXEC step (44_dispatcher R183). -/
abbrev ExecNext (s : State) : Prop := s.nextMove = .engine ∧ s.ds = .exec

/-- An inverted-region register as R39 describes it. -/
structure Inv.Wf (rows : Nat) (inv : Inv) : Prop where
  region : inv.valid = true → inv.line.toNat < rows ∧ inv.start.toNat < inv.stop.toNat ∧ inv.stop.toNat ≤ 16
  cleared : inv.valid = false → inv = Inv.none

/-- A display as R38 and R53 describe it: `rows` rows of 16 cells. -/
structure GridWf (rows : Nat) (disp : List (List Byte)) : Prop where
  height : disp.length = rows
  width : ∀ r ∈ disp, r.length = 16

/-- A keypad unit as R38 to R40 describe it. -/
structure Keypad.Wf (rows : Nat) (x : Keypad) : Prop where
  grid : GridWf rows x.disp
  inv : x.inv.Wf rows
  statLen : x.kstatLen ≤ 121
  stat : x.kstat.length = 121
  statPad : ∀ b ∈ x.kstat.drop x.kstatLen, b = 0

/-- A spa unit as R46 and R56 describe it. -/
structure Spa.Wf (x : Spa) : Prop where
  textLen : x.textLen = 0 ∨ x.textLen = 3 ∨ x.textLen = 7
  text : x.text.length = 7
  textPad : ∀ b ∈ x.text.drop x.textLen, b = 0

/-- `TXBUF[0..TXLEN)` is a reply of the unit in the frame latch (40_framecodec R118, R119). -/
def HoldsReply (s : State) : Prop :=
  ∃ p, s.txBuf.take s.txLen = encodeFrame 0x00 0x01 [s.fUnit.ackByte, p]
    ∧ s.txLen = (encodeFrame 0x00 0x01 [s.fUnit.ackByte, p]).length

/-- The well-formed states. -/
structure State.Wf (s : State) : Prop where
  cbuf : s.cbuf.length = 124
  clen : s.clen ≤ 124
  /-- While hunting nothing is accumulated (41_busreader R127 to R130). -/
  hunting : s.ss = .hunt ∨ s.ss = .huntDle → s.clen = 0
  /-- No byte is consumed from EXEC until the reply ends (44_dispatcher R192). -/
  busy : s.ds = .exec ∨ s.ds = .gap ∨ s.ds = .tx → s.ss = .hunt
  /-- Entering STOPPED empties the receive path (R190), and nothing arrives there (41_busreader R121). -/
  stopped : s.ds = .stopped → s.rxFifo = [] ∧ s.ss = .hunt
  fifo : s.rxFifo.length ≤ s.par.rxFifoDepth
  txBuf : s.txBuf.length = 10
  noReply : s.ds = .stopped ∨ s.ds = .recv ∨ s.ds = .exec → s.txLen = 0 ∧ s.txPos = 0
  reply : s.ds = .gap ∨ s.ds = .tx → HoldsReply s
  gapPos : s.ds = .gap → s.txPos = 0
  txPos : s.txPos ≤ s.txLen
  /-- `DE = 1` and `RE_N = 1` exactly in TX (R30, 44_dispatcher R187). -/
  driver : (s.de = true ↔ s.ds = .tx) ∧ (s.reN = true ↔ s.ds = .tx)
  args : s.fArgs.length = 121 ∧ s.fNargs ≤ 121
  /-- The frame being executed or answered was addressed to its unit (44_dispatcher R182). -/
  addressed : s.ds = .exec ∨ s.ds = .gap ∨ s.ds = .tx → s.fDest = s.fUnit.addr
  /-- A reply starts no earlier than the gap allows (44_dispatcher R185, R193). -/
  gap : s.ds = .tx → s.tRef + 4000000 ≤ s.txT0 ∧ s.txT0 ≤ s.now
  /-- Outside TX every character of the trace has ended (44_dispatcher R188, R189, log 10). -/
  sent : s.ds ≠ .tx → ∀ o ∈ s.lineOut, o.ended (byteNs s.par) s.now = true
  /-- In TX the trace ends with the driver's edge and the characters emitted so far, at the times of R188 (log 10). -/
  sending : s.ds = .tx → ∃ before, (∀ o ∈ before, o.ended (byteNs s.par) s.txT0 = true)
    ∧ s.lineOut = before ++ .driver s.txT0 true :: charsFrom s.txT0 (byteNs s.par) 0 (s.txBuf.take s.txPos)
  sq : s.sq.Wf 12
  pda : s.pda.Wf 10
  spa : s.spa.Wf

end Sys2Proof.Machine
end

