-- ==== Sys2Proof/Certificates/Slice0/Obligations.lean ====
section
/-! DEFINITION. The statements for the provers, by the numbered rules of spec/, and the words they are written in. The
namespace Sys2Proof.Spec holds those words: what a rule says of the state, written out field by field and apart from the
operations of Sys2Proof/Machine that implement it. -/

namespace Sys2Proof.Spec

open Sys2Proof.Machine

/-! ### The end of an EXEC step, written out for each unit (44_dispatcher R183, R184; 40_framecodec R118) -/

/-- The state `s` of unit SQ after its reply step and the common effects. -/
def ackedSq (s : State) : State :=
  let wire := encodeFrame 0x00 0x01 [0x8B, s.sq.pending]
  { s with
    sq := { s.sq with pending := 0x00, seq := s.sq.seq + 1 }
    txBuf := wire ++ s.txBuf.drop wire.length
    txLen := wire.length
    txPos := 0
    events := s.events ||| 0x100#12
    ds := .gap }

/-- The state `s` of unit PDA after its reply step and the common effects. -/
def ackedPda (s : State) : State :=
  let wire := encodeFrame 0x00 0x01 [0x40, s.pda.pending]
  { s with
    pda := { s.pda with pending := 0x00, seq := s.pda.seq + 1 }
    txBuf := wire ++ s.txBuf.drop wire.length
    txLen := wire.length
    txPos := 0
    events := s.events ||| 0x200#12
    ds := .gap }

/-- The state `s` of unit SPA after its reply step and the common effects. -/
def ackedSpa (s : State) : State :=
  let wire := encodeFrame 0x00 0x01 [0x00, s.spa.pending]
  { s with
    spa := { s.spa with pending := 0x00, seq := s.spa.seq + 1 }
    txBuf := wire ++ s.txBuf.drop wire.length
    txLen := wire.length
    txPos := 0
    events := s.events ||| 0x400#12
    ds := .gap }

/-- A command-argument fault of the frame in the latch (42_keypad R141, 60_exceptions R221 to R223). -/
def argFaulted (s : State) : State :=
  { s with
    lastErr := ⟨7, s.fDest ++ s.fCmd⟩
    cnt := { s.cnt with errCmdArg := s.cnt.errCmdArg + 1 }
    events := s.events ||| 0x008#12 }

/-- An unknown command counted and marked (42_keypad R152). -/
def unknownCounted (s : State) : State :=
  { s with
    cnt := { s.cnt with unknownCmd := s.cnt.unknownCmd + 1 }
    events := s.events ||| 0x020#12 }

/-- The square keypad's display replaced. -/
def withSqDisp (s : State) (d : List (List Byte)) : State := { s with sq := { s.sq with disp := d } }

/-- The PDA keypad's display replaced. -/
def withPdaDisp (s : State) (d : List (List Byte)) : State := { s with pda := { s.pda with disp := d } }

/-- The cell at row `r`, column `c`. -/
def cell (d : List (List Byte)) (r c : Nat) : Option Byte := (d[r]?).bind (·[c]?)

/-- Sixteen spaces (42_keypad R141). -/
def blank : List Byte := [SP, SP, SP, SP, SP, SP, SP, SP, SP, SP, SP, SP, SP, SP, SP, SP]

/-- `d'` is `d` with row `r` holding the text: `t` up to its first 0x00, cut to 16 bytes, then spaces; the other rows
and the number of rows as before (42_keypad R146). -/
def RowWritten (d d' : List (List Byte)) (r : Nat) (t : List Byte) : Prop :=
  d'.length = d.length ∧ (∀ q, q ≠ r → d'[q]? = d[q]?)
    ∧ ∃ n, n ≤ t.length ∧ n ≤ 16 ∧ (∀ c, c < n → t[c]? ≠ some 0x00)
      ∧ (n = 16 ∨ n = t.length ∨ t[n]? = some 0x00)
      ∧ ∃ row, d'[r]? = some row ∧ row.length = 16
        ∧ (∀ c, c < n → row[c]? = t[c]?) ∧ (∀ c, n ≤ c → c < 16 → row[c]? = some 0x20)

/-- `d'` is `d` with rows `[s, e)` moved down by one and row `s` blank (42_keypad R144, direction 0x01). -/
def MovedDown (d d' : List (List Byte)) (s e : Nat) : Prop :=
  d'.length = d.length ∧ (∀ r, r < s ∨ e ≤ r → d'[r]? = d[r]?) ∧ d'[s]? = some blank
    ∧ ∀ r, s < r → r < e → d'[r]? = d[r - 1]?

/-- `d'` is `d` with rows `[s, e)` moved up by one and row `e - 1` blank (42_keypad R144, direction 0xFF). -/
def MovedUp (d d' : List (List Byte)) (s e : Nat) : Prop :=
  d'.length = d.length ∧ (∀ r, r < s ∨ e ≤ r → d'[r]? = d[r]?) ∧ d'[e - 1]? = some blank
    ∧ ∀ r, s ≤ r → r + 1 < e → d'[r]? = d[r + 1]?

/-- The argument count, direction and region under which a scroll faults in a display of `rows` rows (42_keypad R144). -/
def ScrollFaults (rows : Nat) (args : List Byte) : Prop :=
  args.length < 3 ∨ ∃ st en d rest, args = st :: en :: d :: rest ∧ (d = 0x01 ∨ d = 0xFF)
    ∧ ¬ (st.toNat < en.toNat ∧ en.toNat ≤ rows)

/-- The arguments under which an invert-range faults in a display of `rows` rows (42_keypad R151). -/
def RangeFaults (rows : Nat) (args : List Byte) : Prop :=
  args.length < 3 ∨ ∃ l st en rest, args = l :: st :: en :: rest
    ∧ (rows ≤ l.toNat ∨ ¬ (st.toNat < en.toNat ∧ en.toNat ≤ 16))

/-- `Match(off, pat)` of 43_spa R168: the pattern stands at the offset, inside the arguments. -/
def Matches (args : List Byte) (off : Nat) (pat : List Byte) : Prop :=
  ∃ before after, args = before ++ pat ++ after ∧ before.length = off

/-- The eight fault counters, in the order of the causes (60_exceptions R221). -/
def faultCounters (c : Counters) : List Word :=
  [c.errChecksum, c.errEscape, c.errOversize, c.errRunt, c.errLine, c.errOverrun, c.errCmdArg, c.errHost]

/-- The unit a frame for `dest` selects, by the bits of `CTRL` (10_state R32, 44_dispatcher R182). -/
def selects (ctrl : BitVec 4) (dest : Byte) : Option UnitId :=
  if dest = 0x40 ∧ ctrl.getLsbD 1 = true then some .sq
  else if dest = 0x60 ∧ ctrl.getLsbD 2 = true then some .pda
  else if dest = 0x20 ∧ ctrl.getLsbD 3 = true then some .spa
  else none

/-- The encodings of `DS` (10_state R23). -/
def dsCode : DispatchState → BitVec 3
  | .stopped => 0
  | .recv => 1
  | .exec => 2
  | .gap => 3
  | .tx => 4

/-- The encodings of `SS` (10_state R24). -/
def ssCode : SyncState → BitVec 2
  | .hunt => 0
  | .huntDle => 1
  | .acc => 2
  | .accDle => 3

/-- The encodings of the tri-state (10_state R47, 45_host R207). -/
def triCode : TriState → BitVec 2
  | .unknown => 0
  | .off => 1
  | .on => 2

/-- The wire bytes of the reply of unit `u` with the pending byte `p` (40_framecodec R118). -/
def wireOf (u : UnitId) (p : Byte) : List Byte := encodeFrame 0x00 0x01 [u.ackByte, p]

/-- The bytes `b` as the characters of the reply of `s` from index `k` on, with their start times (44_dispatcher R188). -/
def sentAs (s : State) (k : Nat) (b : List Byte) : List LineOut :=
  b.mapIdx fun n v => LineOut.char (s.txT0 + (k + n) * byteNs s.par) v

/-- An edge of the driver, or a character of `byte` nanoseconds that has ended by `now`. -/
def endsBy (byte now : Nat) : LineOut → Bool
  | .driver _ _ => true
  | .char t _ => t + byte ≤ now

/-- The next move is ENGINE's, and `rest` follows it. -/
abbrev EngineNext (s : State) (rest : List Move) : Prop := s.schedule = .engine :: rest

/-- ENGINE consumes the byte `b` next, and `fifo` stays behind it (41_busreader R123). -/
structure Consumes (s : State) (b : Byte) (fifo : List Byte) (rest : List Move) : Prop where
  next : EngineNext s rest
  ds : s.ds = .recv
  en : s.ctrl.getLsbD 0 = true
  fifo : s.rxFifo = b :: fifo

/-- The state after the byte and the move are taken off. -/
def afterByte (s : State) (fifo : List Byte) (rest : List Move) : State :=
  { s with rxFifo := fifo, schedule := rest }

/-- The unit storage of unit SQ, PDA and SPA that only EXEC steps write: all but the pending bytes (20_memory R87). -/
def storage (s : State) : Keypad × Keypad × Spa :=
  ({ s.sq with pending := 0 }, { s.pda with pending := 0 }, { s.spa with pending := 0 })

end Sys2Proof.Spec

open Sys2Proof Sys2Proof.Machine Sys2Proof.Spec

/-! ### Encoding -/

/-- Words written out from spec/95_test_vectors.md decode to the instructions they stand for. -/
def Obligations.SpecWordsDecode : Prop :=
  decode Enables.all (.rx [0x10, 0x02, 0x40, 0x04, 0x00, 0x48, 0x49, 0xE7, 0x10, 0x03]) = .ok (.sqWrite [0x00, 0x48, 0x49])
  ∧ decode Enables.all (.rx [0x10, 0x02, 0x40, 0x10, 0x00, 0x01, 0x02, 0x05, 0x6A, 0x10, 0x03]) = .ok (.sqInvrange [1, 2, 5])
  ∧ decode Enables.all (.rx [0x10, 0x02, 0x60, 0x7E, 0xF0, 0x10, 0x03]) = .ok (.pdaUnknown 0x7E [])
  ∧ decode Enables.all (.rx [0x10, 0x02, 0x20, 0x02, 0x10, 0x00, 0x44, 0x10, 0x03]) = .ok (.spaBstatus [0x10])
  ∧ decode Enables.all (.rx [0x10, 0x02, 0xFF, 0xFF, 0x10, 0x00, 0x10, 0x03]) = .ok (.discard 0xFF 0xFF [])
  ∧ decode Enables.all (.rx [0x10, 0x02, 0x40, 0x01, 0x52, 0x10, 0x03]) = .error (.badChecksum 0x53 0x52)
  ∧ decode Enables.all (.reply [0x10, 0x02, 0x00, 0x01, 0x8B, 0x72, 0x10, 0x00, 0x10, 0x03]) = .ok (.ack .sq 0x72)
  ∧ decode Enables.all (.host (.read 0x59C)) = .ok (.hDispRdPda 39)
  ∧ decode Enables.all (.host (.write 0x004 7)) = .ok (.hUnmapped (.write 0x004 7))

/-- Decoding the code of a well-formed instruction that the enables admit gives it back, every operand included. -/
def Obligations.DecodeAfterEncode : Prop :=
  ∀ (en : Enables) (i : Instr), i.wf = true → i.admissible en = true → decode en (encode i) = .ok i

/-- A code the decoder accepts is the code of the instruction it gives, which is well-formed and admitted: each code has
one meaning, and a byte string is accepted only if it is stuffed and summed as R91 and R93 say. -/
def Obligations.EncodeAfterDecode : Prop :=
  ∀ (en : Enables) (c : Code) (i : Instr), decode en c = .ok i →
    encode i = c ∧ i.wf = true ∧ i.admissible en = true

/-- The length law of the encoder. -/
def Obligations.EncodedFrameLength : Prop :=
  ∀ (d c : Byte) (a : List Byte),
    (encodeFrame d c a).length = 7 + a.length + ([d, c] ++ a ++ [frameCs d c a]).count 0x10

/-- Changing one byte changes the checksum by the same amount, so it always changes the checksum. -/
def Obligations.ChecksumFollowsOneByte : Prop :=
  ∀ (xs ys : List Byte) (b b' : Byte),
    checksum (xs ++ b' :: ys) - checksum (xs ++ b :: ys) = b' - b
    ∧ (b ≠ b' → checksum (xs ++ b :: ys) ≠ checksum (xs ++ b' :: ys))

/-- The checksum field: the sum of the header, dest, cmd and args, modulo 256 (R93). -/
def Obligations.FrameChecksumIsSum : Prop :=
  ∀ (d c : Byte) (a : List Byte),
    (frameCs d c a).toNat = (0x12 + d.toNat + c.toNat + (a.map BitVec.toNat).sum) % 256

/-- Every reply is 9 bytes, or 10 for exactly two pending bytes of each unit (R118). -/
def Obligations.ReplyIsNineOrTenBytes : Prop :=
  ∀ p : Byte,
    (encodeFrame 0x00 0x01 [UnitId.sq.ackByte, p]).length = (if p = 0x10 ∨ p = 0x72 then 10 else 9)
    ∧ (encodeFrame 0x00 0x01 [UnitId.pda.ackByte, p]).length = (if p = 0x10 ∨ p = 0xBD then 10 else 9)
    ∧ (encodeFrame 0x00 0x01 [UnitId.spa.ackByte, p]).length = (if p = 0x10 ∨ p = 0xFD then 10 else 9)

/-! ### A step runs the decoded instruction -/

/-- A step runs the decoded instruction. A host access that decodes to `i` runs `i`; the EXEC step runs the well-formed
command whose frame is in the latch; and consuming the `ETX` of a valid frame whose address selects no enabled unit runs
DISCARD of that frame, on the state in which the frame has been latched and counted (R123, R129, R182, R183). What the
step adds is that the move is taken off the schedule (the model's form of a run: logs 1 and 15). -/
def Obligations.StepRunsDecodedInstruction : Prop :=
  (∀ (s : State) (acc : HostAccess) (rest : List Move) (en : Enables) (i : Instr),
    s.schedule = .host acc :: rest → decode en (.host acc) = .ok i →
    step s = exec i { s with schedule := rest })
  ∧ (∀ (s : State) (rest : List Move) (i : Instr) (u : UnitId) (f : Frame),
    i.wf = true → i.unit? = some u → i.message = .frame f →
    EngineNext s rest → s.ds = .exec → s.fUnit = u → s.fCmd = f.cmd → s.fArgs.take s.fNargs = f.args →
    step s = exec i { s with schedule := rest })
  ∧ (∀ (s : State) (fifo : List Byte) (rest : List Move) (d c : Byte) (a : List Byte),
    Consumes s ETX fifo rest → s.ss = .accDle →
    s.cbuf.take s.clen = [d, c] ++ a ++ [frameCs d c a] → selects s.ctrl d = none →
    step s = exec (.discard d c a)
      { afterByte s fifo rest with
        fDest := d, fCmd := c, fNargs := a.length, fArgs := a ++ s.fArgs.drop a.length
        cnt := { s.cnt with frameOk := s.cnt.frameOk + 1 }
        events := s.events ||| 0x040#12
        tRef := s.now, ss := .hunt, clen := 0 })

/-- No fault stops the block and no step is refused: from every state a run of any length goes on (R222, R225). That a run
goes on when its schedule is empty is the model's choice (log 2). -/
def Obligations.RunsNeverStop : Prop := ∀ s : State, Safe s

/-! ### Reset -/

/-- What the spec gives for reset: the engine, the registers and the units (R50 to R52). -/
def Obligations.ResetLeavesSpecValues : Prop :=
  State.reset.ds = .stopped ∧ State.reset.ss = .hunt ∧ State.reset.clen = 0 ∧ State.reset.rxFifo = []
  ∧ State.reset.txLen = 0 ∧ State.reset.txPos = 0
  ∧ State.reset.de = false ∧ State.reset.reN = false ∧ State.reset.txd = true
  ∧ State.reset.ctrl = 0 ∧ State.reset.events = 0 ∧ State.reset.lastErr = ⟨0, 0⟩
  ∧ State.reset.cnt = ⟨0, 0, 0, 0, 0, 0, 0, 0, 0, 0, 0, 0⟩
  ∧ exec .hStatusRd State.reset = .next { State.reset with hostRdata := 0 }
  ∧ (∀ r c, cell State.reset.sq.disp r c = if r < 12 ∧ c < 16 then some 0x20 else none)
  ∧ (∀ r c, cell State.reset.pda.disp r c = if r < 10 ∧ c < 16 then some 0x20 else none)
  ∧ State.reset.sq.inv = ⟨false, 0, 0, 0⟩ ∧ State.reset.pda.inv = ⟨false, 0, 0, 0⟩
  ∧ State.reset.sq.kstatLen = 0 ∧ State.reset.pda.kstatLen = 0
  ∧ State.reset.sq.kstat = List.replicate 121 0 ∧ State.reset.pda.kstat = List.replicate 121 0
  ∧ State.reset.spa.st = ⟨.unknown, .unknown, .unknown⟩
  ∧ State.reset.spa.textLen = 0 ∧ State.reset.spa.text = List.replicate 7 0
  ∧ State.reset.sq.pending = 0 ∧ State.reset.pda.pending = 0 ∧ State.reset.spa.pending = 0
  ∧ State.reset.sq.seq = 0 ∧ State.reset.pda.seq = 0 ∧ State.reset.spa.seq = 0

/-- The reset input puts the whole block into its reset state at once, from any state, and a reply is cut off: the
driver is off, and of the reply's characters those that have ended by the reset are on the line (R250, R252). That the
time, the schedule, the latest read data and the parameters stay is the model's (log 8), as are the values the reset state
gives to what the spec leaves unspecified (log 7) and which character is the last of a cut reply (log 22). -/
def Obligations.ResetInputRestoresResetState : Prop :=
  ∀ (s : State) (rest : List Move), s.schedule = .reset :: rest →
    step s = .next { State.reset with
      now := s.now, schedule := rest, hostRdata := s.hostRdata, par := s.par
      lineOut :=
        if s.de then
          (s.lineOut ++ sentAs s s.txPos ((s.txBuf.take s.txLen).drop s.txPos)).filter (endsBy (byteNs s.par) s.now)
            ++ [.driver s.now false]
        else s.lineOut }

/-- The reset state is well-formed; for the fields the spec leaves unspecified this is of the model's values (log 7). -/
def Obligations.ResetStateWellFormed : Prop := State.reset.Wf

/-- Every step keeps the well-formed states: the geometry of displays, status stores and texts, the buffer bounds, the
driver on exactly in TX, a reply of the latched unit in the transmit buffer, the trace of the line, and the response gap. The states are any, reached or not; what an empty schedule does is the model's choice (log 2). -/
def Obligations.EveryStepKeepsWellFormed : Prop :=
  ∀ s t : State, s.Wf → step s = .next t → t.Wf

/-- Every row of every keypad display always holds exactly 16 bytes, and no step changes the number of rows (R53). -/
def Obligations.DisplayGeometryNeverChanges : Prop :=
  (GridWf 12 State.reset.sq.disp ∧ GridWf 10 State.reset.pda.disp)
  ∧ ∀ s t : State, GridWf 12 s.sq.disp ∧ GridWf 10 s.pda.disp → step s = .next t →
      GridWf 12 t.sq.disp ∧ GridWf 10 t.pda.disp

/-! ### Faults -/

/-- Recording a fault writes the cause and INFO, bumps the cause's counter alone and sets its event bit alone; all other
state, `DS` among it, stays (R221, R222). -/
def Obligations.FaultIsRecordedOnly : Prop :=
  ∀ (info : BitVec 16) (s : State),
    raiseFault .checksum info s = { s with lastErr := ⟨1, info⟩, cnt := { s.cnt with errChecksum := s.cnt.errChecksum + 1 }, events := s.events ||| 0x001#12 }
    ∧ raiseFault .escape info s = { s with lastErr := ⟨2, info⟩, cnt := { s.cnt with errEscape := s.cnt.errEscape + 1 }, events := s.events ||| 0x001#12 }
    ∧ raiseFault .oversize info s = { s with lastErr := ⟨3, info⟩, cnt := { s.cnt with errOversize := s.cnt.errOversize + 1 }, events := s.events ||| 0x001#12 }
    ∧ raiseFault .runt info s = { s with lastErr := ⟨4, info⟩, cnt := { s.cnt with errRunt := s.cnt.errRunt + 1 }, events := s.events ||| 0x001#12 }
    ∧ raiseFault .line info s = { s with lastErr := ⟨5, info⟩, cnt := { s.cnt with errLine := s.cnt.errLine + 1 }, events := s.events ||| 0x002#12 }
    ∧ raiseFault .overrun info s = { s with lastErr := ⟨6, info⟩, cnt := { s.cnt with errOverrun := s.cnt.errOverrun + 1 }, events := s.events ||| 0x004#12 }
    ∧ raiseFault .cmdArg info s = { s with lastErr := ⟨7, info⟩, cnt := { s.cnt with errCmdArg := s.cnt.errCmdArg + 1 }, events := s.events ||| 0x008#12 }
    ∧ raiseFault .hostAccess info s = { s with lastErr := ⟨8, info⟩, cnt := { s.cnt with errHost := s.cnt.errHost + 1 }, events := s.events ||| 0x010#12 }

/-- A step other than reset records at most one fault: no fault counter moves and LAST_ERR stays, or one cause's counter
moves by 1, LAST_ERR holds that cause, and its event bit is set (R230, R231). -/
def Obligations.StepRecordsAtMostOneFault : Prop :=
  ∀ s t : State, s.nextMove ≠ .reset → step s = .next t →
    (faultCounters t.cnt = faultCounters s.cnt ∧ t.lastErr = s.lastErr)
    ∨ ∃ c : Cause, faultCounters t.cnt = faultCounters (s.cnt.countFault c) ∧ t.lastErr.cause = c.code
        ∧ t.events &&& c.event.mask = c.event.mask

/-! ### The receive path -/

/-- The arrival of a character, in its four cases (R121). -/
def Obligations.ArrivalOfCharacter : Prop :=
  ∀ (s : State) (v : Byte) (err : Bool) (rest : List Move), s.schedule = .line v err :: rest →
    step s = .next (
      if s.ds = .stopped ∨ s.de = true then { s with schedule := rest }
      else if err = true then
        { s with schedule := rest, lastErr := ⟨5, v.setWidth 16⟩, cnt := { s.cnt with errLine := s.cnt.errLine + 1 }, events := s.events ||| 0x002#12 }
      else if s.rxFifo.length = s.par.rxFifoDepth then
        { s with schedule := rest, lastErr := ⟨6, v.setWidth 16⟩, cnt := { s.cnt with errOverrun := s.cnt.errOverrun + 1 }, events := s.events ||| 0x004#12 }
      else { s with schedule := rest, rxFifo := s.rxFifo ++ [v] })

/-- A byte consumed while hunting: in HUNT only a `DLE` counts (R124); in HUNT_DLE an `STX` opens a frame and a `DLE` is
the newest that may (R125). -/
def Obligations.ByteWhileHunting : Prop :=
  ∀ (s : State) (b : Byte) (fifo : List Byte) (rest : List Move), Consumes s b fifo rest →
    (s.ss = .hunt → step s = .next { afterByte s fifo rest with ss := if b = 0x10 then .huntDle else .hunt })
    ∧ (s.ss = .huntDle → step s = .next (
      if b = 0x02 then { afterByte s fifo rest with ss := .acc, clen := 0 }
      else { afterByte s fifo rest with ss := if b = 0x10 then .huntDle else .hunt }))

/-- A byte consumed in ACC: a `DLE` is marked, any other byte is stored, and a 125th content byte is oversize
(R126, R127). -/
def Obligations.ByteInAcc : Prop :=
  ∀ (s : State) (b : Byte) (fifo : List Byte) (rest : List Move), Consumes s b fifo rest → s.ss = .acc →
    step s = .next (
      if b = 0x10 then { afterByte s fifo rest with ss := .accDle }
      else if s.clen = 124 then
        { afterByte s fifo rest with ss := .hunt, clen := 0, lastErr := ⟨3, 0⟩, cnt := { s.cnt with errOversize := s.cnt.errOversize + 1 }, events := s.events ||| 0x001#12 }
      else { afterByte s fifo rest with ss := .acc, cbuf := s.cbuf.set s.clen b, clen := s.clen + 1 })

/-- A byte other than `ETX` consumed in ACC_DLE: a filler makes the `DLE` data, anything else is a malformed escape
(R127, R128). -/
def Obligations.ByteInAccDle : Prop :=
  ∀ (s : State) (b : Byte) (fifo : List Byte) (rest : List Move), Consumes s b fifo rest → s.ss = .accDle → b ≠ 0x03 →
    step s = .next (
      if b = 0x00 then
        if s.clen = 124 then
          { afterByte s fifo rest with ss := .hunt, clen := 0, lastErr := ⟨3, 0⟩, cnt := { s.cnt with errOversize := s.cnt.errOversize + 1 }, events := s.events ||| 0x001#12 }
        else { afterByte s fifo rest with ss := .acc, cbuf := s.cbuf.set s.clen 0x10, clen := s.clen + 1 }
      else
        { afterByte s fifo rest with
          ss := if b = 0x02 then .acc else if b = 0x10 then .huntDle else .hunt
          clen := 0, lastErr := ⟨2, b.setWidth 16⟩, cnt := { s.cnt with errEscape := s.cnt.errEscape + 1 }, events := s.events ||| 0x001#12 })

/-- Validation of the accumulated content at the terminating `ETX`: a runt, a checksum mismatch, or a valid frame that
is latched and counted, and then dispatched to the unit of its address if that unit's bit of CTRL is set, and to no unit
otherwise (R129, R131, R182, R32). -/
def Obligations.ValidationAtTrailer : Prop :=
  ∀ (s : State) (fifo : List Byte) (rest : List Move), Consumes s 0x03 fifo rest → s.ss = .accDle →
    s.cbuf.length = 124 → s.clen ≤ 124 →
    (s.clen < 3 → step s = .next
      { afterByte s fifo rest with
        ss := .hunt, clen := 0, lastErr := ⟨4, BitVec.ofNat 16 s.clen⟩, cnt := { s.cnt with errRunt := s.cnt.errRunt + 1 }, events := s.events ||| 0x001#12 })
    ∧ (3 ≤ s.clen → ∃ (d c k : Byte) (a : List Byte), s.cbuf.take s.clen = [d, c] ++ a ++ [k]
        ∧ (k ≠ frameCs d c a → step s = .next
          { afterByte s fifo rest with
            ss := .hunt, clen := 0, lastErr := ⟨1, frameCs d c a ++ k⟩, cnt := { s.cnt with errChecksum := s.cnt.errChecksum + 1 }, events := s.events ||| 0x001#12 })
        ∧ (k = frameCs d c a → selects s.ctrl d = none → step s = .next
          { afterByte s fifo rest with
            ss := .hunt, clen := 0, fDest := d, fCmd := c, fNargs := a.length, fArgs := a ++ s.fArgs.drop a.length
            cnt := { s.cnt with frameOk := s.cnt.frameOk + 1 }
            events := s.events ||| 0x040#12, tRef := s.now })
        ∧ (k = frameCs d c a → ∀ u : UnitId, selects s.ctrl d = some u → step s = .next
          { afterByte s fifo rest with
            ss := .hunt, clen := 0, fDest := d, fCmd := c, fNargs := a.length, fArgs := a ++ s.fArgs.drop a.length
            cnt := { s.cnt with frameOk := s.cnt.frameOk + 1, addressed := s.cnt.addressed + 1 }
            events := s.events ||| 0x040#12, tRef := s.now, fUnit := u, ds := .exec }))

/-- From any synchronizer state, with the encoding of a frame in the FIFO and the engine running, the engine's next
steps consume it and validate exactly that frame, at its last byte; every frame counted before stays counted once, and
if the synchronizer was hunting, no fault is recorded (R117, R133). The moves are named one by one, so no choice of
the model's for an empty schedule enters. -/
def Obligations.SynchronizerRecoversEncodedFrame : Prop :=
  ∀ (s : State) (rest : List Move) (d c : Byte) (a : List Byte),
    a.length ≤ 121 → s.cbuf.length = 124 → s.fArgs.length = 121 →
    s.ds = .recv → s.ctrl.getLsbD 0 = true → s.rxFifo = encodeFrame d c a →
    s.schedule = List.replicate (encodeFrame d c a).length .engine ++ rest →
    ∃ t : State, Host.Core.run core (encodeFrame d c a).length s = .next t
      ∧ t.fDest = d ∧ t.fCmd = c ∧ t.fArgs.take t.fNargs = a
      ∧ t.cnt.frameOk = s.cnt.frameOk + 1 ∧ t.ss = .hunt ∧ t.clen = 0 ∧ t.rxFifo = [] ∧ t.schedule = rest
      ∧ (∀ u, selects s.ctrl d = some u → t.ds = .exec ∧ t.fUnit = u)
      ∧ (selects s.ctrl d = none → t.ds = .recv) ∧ (t.ds = .exec ∨ t.ds = .recv)
      ∧ (s.ss = .hunt ∨ s.ss = .huntDle → faultCounters t.cnt = faultCounters s.cnt ∧ t.lastErr = s.lastErr)
      ∧ storage t = storage s

/-- The engine enters EXEC only by consuming the trailer of a content that is valid and addressed to an enabled unit, and
the latch then holds that content's frame: no partial, unvalidated or runt frame is dispatched (R135, R182). -/
def Obligations.OnlyValidFramesReachExec : Prop :=
  ∀ s t : State, s.cbuf.length = 124 → s.clen ≤ 124 → step s = .next t → s.ds ≠ .exec → t.ds = .exec →
    s.nextMove = .engine ∧ s.ds = .recv ∧ s.ctrl.getLsbD 0 = true ∧ s.ss = .accDle ∧ s.rxFifo.head? = some 0x03
    ∧ (∃ (d c : Byte) (a : List Byte), s.cbuf.take s.clen = [d, c] ++ a ++ [frameCs d c a]
        ∧ t.fDest = d ∧ t.fCmd = c ∧ t.fArgs.take t.fNargs = a ∧ selects s.ctrl d = some t.fUnit)
    ∧ t.cnt.addressed = s.cnt.addressed + 1

/-! ### The dispatch FSM, the gap timer and the transmitter -/

/-- Every change of `DS` by a step is a row of the transition table, under that row's condition, or the reset input; the
condition of the row from RECV to EXEC is that the byte consumed completes a valid frame for the enabled unit that runs
it (R180, R182). -/
def Obligations.DispatchStateTransitions : Prop :=
  ∀ s t : State, step s = .next t → t.ds ≠ s.ds →
    (s.nextMove = .reset ∧ t.ds = .stopped)
    ∨ (s.nextMove = .engine
      ∧ ((s.ds = .stopped ∧ t.ds = .recv ∧ s.ctrl.getLsbD 0 = true)
        ∨ (s.ds = .recv ∧ t.ds = .exec ∧ s.ctrl.getLsbD 0 = true ∧ s.ss = .accDle
          ∧ ∃ (fifo : List Byte) (d c : Byte) (a : List Byte), s.rxFifo = 0x03 :: fifo
            ∧ s.cbuf.take s.clen = [d, c] ++ a ++ [frameCs d c a] ∧ selects s.ctrl d = some t.fUnit)
        ∨ (s.ds = .recv ∧ t.ds = .stopped ∧ s.ctrl.getLsbD 0 = false)
        ∨ (s.ds = .exec ∧ t.ds = .gap)
        ∨ (s.ds = .gap ∧ t.ds = .tx ∧ s.ctrl.getLsbD 0 = true ∧ s.tRef + 4000000 ≤ s.now)
        ∨ (s.ds = .gap ∧ t.ds = .stopped ∧ s.ctrl.getLsbD 0 = false)
        ∨ (s.ds = .tx ∧ t.ds = .recv ∧ s.txLen ≤ s.txPos ∧ s.txT0 + s.txLen * byteNs s.par ≤ s.now)))

/-- The start step (R181). -/
def Obligations.StartStep : Prop :=
  ∀ (s : State) (rest : List Move), EngineNext s rest → s.ds = .stopped → s.ctrl.getLsbD 0 = true →
    step s = .next { s with schedule := rest, ss := .hunt, clen := 0, rxFifo := [], ds := .recv }

/-- The stop step, from RECV and from GAP; in GAP it cancels the prepared reply and restores no pending byte
(R190, R262). -/
def Obligations.StopStep : Prop :=
  ∀ (s : State) (rest : List Move), EngineNext s rest → s.ds = .recv ∨ s.ds = .gap → s.ctrl.getLsbD 0 = false →
    step s = .next { s with
      schedule := rest, ss := .hunt, clen := 0, rxFifo := [], txLen := 0, txPos := 0
      events := s.events ||| 0x080#12, ds := .stopped }

/-- The reply start step, once the gap has elapsed (R186); the trace of the line is the model's form (log 10). -/
def Obligations.ReplyStartStep : Prop :=
  ∀ (s : State) (rest : List Move), EngineNext s rest → s.ds = .gap → s.ctrl.getLsbD 0 = true →
    s.tRef + 4000000 ≤ s.now →
    step s = .next { s with
      schedule := rest, txT0 := s.now, de := true, reN := true, ds := .tx, lineOut := s.lineOut ++ [.driver s.now true] }

/-- The transmission of one character, and how long one takes: ten bits at BAUD, rounded up to a nanosecond (R188, R7).
The trace of the line is the model's form (log 10), the rounding is log 6, and the ten bits are log 17. -/
def Obligations.CharacterStep : Prop :=
  (∀ p : Params, 10000000000 ≤ byteNs p * (p.baudPred + 1) ∧ byteNs p * (p.baudPred + 1) < 10000000000 + (p.baudPred + 1))
  ∧ ∀ (s : State) (rest : List Move) (v : Byte), EngineNext s rest → s.ds = .tx → s.txPos < s.txLen →
    s.txBuf[s.txPos]? = some v →
    step s = .next { s with
      schedule := rest, txPos := s.txPos + 1
      lineOut := s.lineOut ++ [.char (s.txT0 + s.txPos * byteNs s.par) v] }

/-- The reply end step (R189); the trace of the line is the model's form (log 10). -/
def Obligations.ReplyEndStep : Prop :=
  ∀ (s : State) (rest : List Move), EngineNext s rest → s.ds = .tx → s.txPos = s.txLen →
    s.txT0 + s.txLen * byteNs s.par ≤ s.now →
    step s = .next { s with
      schedule := rest, de := false, reN := false, txLen := 0, txPos := 0
      cnt := { s.cnt with replySent := s.cnt.replySent + 1 }, events := s.events ||| 0x800#12, ds := .recv
      lineOut := s.lineOut ++ [.driver s.now false] }

/-- The driver is enabled, and the receiver disabled, exactly in TX: it holds at reset and every step keeps it; and while
it is, an arriving character changes nothing (R187). -/
def Obligations.DriverOnExactlyInTx : Prop :=
  ((State.reset.de = true ↔ State.reset.ds = .tx) ∧ (State.reset.reN = true ↔ State.reset.ds = .tx))
  ∧ (∀ s t : State, (s.de = true ↔ s.ds = .tx) ∧ (s.reN = true ↔ s.ds = .tx) → step s = .next t →
      (t.de = true ↔ t.ds = .tx) ∧ (t.reN = true ↔ t.ds = .tx))
  ∧ (∀ (s : State) (v : Byte) (err : Bool) (rest : List Move), (s.de = true ↔ s.ds = .tx) → s.ds = .tx →
      s.schedule = .line v err :: rest → step s = .next { s with schedule := rest })

/-- What a step puts on the line, in a well-formed state: nothing; the driver's edge on, entering TX from GAP; the next
character of the reply that the transmit buffer holds, a reply of the unit in the latch, at the time R188 gives it; the
driver's edge off, leaving TX after its last character; or, by a reset in TX, the end of a cut reply. As long as TX lasts
the buffer, the unit and the start time stay, so all characters are of one reply (R119, R187 to R189, R252). The trace is
the model's form (log 10), and the last character of a cut reply is log 22. -/
def Obligations.OnlyRepliesAreSent : Prop :=
  ∀ s t : State, s.Wf → step s = .next t →
    (s.ds = .tx → t.ds = .tx →
      t.txBuf = s.txBuf ∧ t.txLen = s.txLen ∧ t.fUnit = s.fUnit ∧ t.txT0 = s.txT0 ∧ t.par = s.par)
    ∧ ((t.lineOut = s.lineOut ∧ (t.ds = .tx ↔ s.ds = .tx))
      ∨ (s.nextMove = .engine ∧ s.ds = .gap ∧ t.ds = .tx ∧ t.txT0 = s.now ∧ t.txPos = 0
        ∧ t.lineOut = s.lineOut ++ [.driver s.now true])
      ∨ (s.nextMove = .engine ∧ s.ds = .tx ∧ t.ds = .tx ∧ t.txPos = s.txPos + 1
        ∧ ∃ p v, s.txBuf.take s.txLen = wireOf s.fUnit p ∧ (wireOf s.fUnit p)[s.txPos]? = some v
          ∧ t.lineOut = s.lineOut ++ [.char (s.txT0 + s.txPos * byteNs s.par) v])
      ∨ (s.nextMove = .engine ∧ s.ds = .tx ∧ t.ds = .recv ∧ s.txPos = s.txLen
        ∧ t.lineOut = s.lineOut ++ [.driver s.now false])
      ∨ (s.nextMove = .reset ∧ s.ds = .tx ∧ t.ds = .stopped
        ∧ ∃ p before, s.txBuf.take s.txLen = wireOf s.fUnit p
          ∧ s.lineOut = before ++ [.driver s.txT0 true] ++ sentAs s 0 ((wireOf s.fUnit p).take s.txPos)
          ∧ t.lineOut = before ++ [.driver s.txT0 true] ++ (sentAs s 0 (wireOf s.fUnit p)).filter (endsBy (byteNs s.par) s.now)
              ++ [.driver s.now false]))

/-- From the EXEC step with the engine enabled, the agents' moves EXEC, a wait past the gap, start,
the characters, a wait past the last one, end: the line carries exactly one reply of the unit, with the byte that was
pending, character by character, and the engine receives again (R183 to R189, R194). The trace is the model's form
(log 10), and the wait past the gap stands for the delay T_LAT (log 4). -/
def Obligations.AddressedFrameGetsOneReply : Prop :=
  ∀ (s : State) (d1 d2 : Nat) (rest : List Move),
    s.ds = .exec → s.ctrl.getLsbD 0 = true → s.tRef + 4000000 ≤ s.now + d1 →
    let wire := encodeFrame 0x00 0x01 [s.fUnit.ackByte, s.pending s.fUnit]
    wire.length * byteNs s.par ≤ d2 →
    s.schedule = [.engine, .time d1, .engine] ++ List.replicate wire.length .engine ++ [.time d2, .engine] ++ rest →
    ∃ t : State, Host.Core.run core (wire.length + 5) s = .next t
      ∧ t.ds = .recv ∧ t.de = false ∧ t.schedule = rest ∧ t.cnt.replySent = s.cnt.replySent + 1
      ∧ t.pending s.fUnit = 0x00 ∧ t.seq s.fUnit = s.seq s.fUnit + 1
      ∧ t.lineOut = s.lineOut ++ [.driver (s.now + d1) true]
          ++ wire.mapIdx (fun n v => LineOut.char (s.now + d1 + n * byteNs s.par) v)
          ++ [.driver (s.now + d1 + d2) false]

/-! ### Every command -/

/-- Every command of every unit, known or unknown and on every path, completes its EXEC step: the reply carries the
unit's ack byte and the byte that was pending, the pending byte is cleared, the sequence counter moves by 1, the unit's
event bit is set, `DS` becomes GAP; and the rest of the engine, the control register, the latch and the other units stay
as they were (R183, R184). -/
def Obligations.EveryCommandRepliesOnce : Prop :=
  ∀ (i : Instr) (u : UnitId) (s : State), i.unit? = some u →
    ∃ t : State, exec i s = .next t
      ∧ t.ds = .gap ∧ t.pending u = 0x00 ∧ t.seq u = s.seq u + 1
      ∧ t.txLen = (encodeFrame 0x00 0x01 [u.ackByte, s.pending u]).length ∧ t.txPos = 0
      ∧ t.txBuf.take t.txLen = encodeFrame 0x00 0x01 [u.ackByte, s.pending u]
      ∧ t.events &&& (cmdEvent u).mask = (cmdEvent u).mask ∧ s.events &&& t.events = s.events
      ∧ (u ≠ .sq → t.sq = s.sq) ∧ (u ≠ .pda → t.pda = s.pda) ∧ (u ≠ .spa → t.spa = s.spa)
      ∧ t = { t with
          ss := s.ss, cbuf := s.cbuf, clen := s.clen, rxFifo := s.rxFifo, tRef := s.tRef, txT0 := s.txT0
          fDest := s.fDest, fCmd := s.fCmd, fNargs := s.fNargs, fArgs := s.fArgs, fUnit := s.fUnit
          de := s.de, reN := s.reN, txd := s.txd, ctrl := s.ctrl, now := s.now, schedule := s.schedule
          hostRdata := s.hostRdata, lineOut := s.lineOut, par := s.par }

/-- Probe, handshake and change request do the common effects and nothing else, whatever their arguments
(R142, R148, R166, R170). -/
def Obligations.AckOnlyCommands : Prop :=
  ∀ (args : List Byte) (s : State),
    (commandOf .sq 0x00 args = .sqProbe args ∧ commandOf .sq 0x05 args = .sqHandshake args
      ∧ commandOf .pda 0x00 args = .pdaProbe args ∧ commandOf .pda 0x05 args = .pdaHandshake args
      ∧ commandOf .spa 0x00 args = .spaProbe args ∧ commandOf .spa 0x09 args = .spaChreq args)
    ∧ exec (.sqProbe args) s = .next (ackedSq s) ∧ exec (.sqHandshake args) s = .next (ackedSq s)
    ∧ exec (.pdaProbe args) s = .next (ackedPda s) ∧ exec (.pdaHandshake args) s = .next (ackedPda s)
    ∧ exec (.spaProbe args) s = .next (ackedSpa s) ∧ exec (.spaChreq args) s = .next (ackedSpa s)

/-- An unknown command is counted and marked, and acknowledged; no unit state changes (R152, R171). -/
def Obligations.UnknownCommandsAreAcknowledged : Prop :=
  ∀ (cmd : Byte) (args : List Byte) (s : State),
    (cmd ∉ [0x00, 0x02, 0x04, 0x05, 0x08, 0x09, 0x0F, 0x10] →
      commandOf .sq cmd args = .sqUnknown cmd args ∧ commandOf .pda cmd args = .pdaUnknown cmd args)
    ∧ (cmd ∉ [0x00, 0x02, 0x03, 0x09] → commandOf .spa cmd args = .spaUnknown cmd args)
    ∧ exec (.sqUnknown cmd args) s = .next (ackedSq (unknownCounted s))
    ∧ exec (.pdaUnknown cmd args) s = .next (ackedPda (unknownCounted s))
    ∧ exec (.spaUnknown cmd args) s = .next (ackedSpa (unknownCounted s))

/-- Clear screen blanks every row and clears the inverted region, whatever its argument (R143). -/
def Obligations.ClearBlanksTheDisplay : Prop :=
  ∀ (args : List Byte) (s : State),
    (commandOf .sq 0x09 args = .sqClear args ∧ commandOf .pda 0x09 args = .pdaClear args)
    ∧ exec (.sqClear args) s = .next (ackedSq { s with sq := { s.sq with disp := [blank, blank, blank, blank, blank, blank, blank, blank, blank, blank, blank, blank], inv := ⟨false, 0, 0, 0⟩ } })
    ∧ exec (.pdaClear args) s = .next (ackedPda { s with pda := { s.pda with disp := [blank, blank, blank, blank, blank, blank, blank, blank, blank, blank], inv := ⟨false, 0, 0, 0⟩ } })

/-- Status stores the argument bytes, their count, and zeros behind them; nothing else changes but the common effects
(R149). -/
def Obligations.StatusStoresArguments : Prop :=
  ∀ (args : List Byte) (s : State), args.length ≤ 121 →
    (commandOf .sq 0x02 args = .sqStatus args ∧ commandOf .pda 0x02 args = .pdaStatus args)
    ∧ exec (.sqStatus args) s = .next (ackedSq { s with sq := { s.sq with kstatLen := args.length, kstat := args ++ List.replicate (121 - args.length) 0x00 } })
    ∧ exec (.pdaStatus args) s = .next (ackedPda { s with pda := { s.pda with kstatLen := args.length, kstat := args ++ List.replicate (121 - args.length) 0x00 } })

/-- Write line, for both keypads. On SQ a row below 12, and on PDA raw row 64 as row 0, raw row 130 as row 2 and every
other row below 10 as itself, holds the text; with no argument or any other row a command-argument fault is recorded;
nothing else changes but the common effects (R146, R147). -/
def Obligations.WriteLine : Prop :=
  (∀ args : List Byte, commandOf .sq 0x04 args = .sqWrite args ∧ commandOf .pda 0x04 args = .pdaWrite args)
  ∧ (∀ (s : State), GridWf 12 s.sq.disp →
    (∀ (row : Byte) (text : List Byte), row.toNat < 12 →
      ∃ d, exec (.sqWrite (row :: text)) s = .next (ackedSq (withSqDisp s d)) ∧ RowWritten s.sq.disp d row.toNat text)
    ∧ (∀ (row : Byte) (text : List Byte), 12 ≤ row.toNat →
      exec (.sqWrite (row :: text)) s = .next (ackedSq (argFaulted s)))
    ∧ exec (.sqWrite []) s = .next (ackedSq (argFaulted s)))
  ∧ (∀ (s : State), GridWf 10 s.pda.disp →
    (∀ (row : Byte) (text : List Byte) (r : Nat),
      (row = 64 ∧ r = 0) ∨ (row = 130 ∧ r = 2) ∨ (row ≠ 64 ∧ row ≠ 130 ∧ r = row.toNat ∧ r < 10) →
      ∃ d, exec (.pdaWrite (row :: text)) s = .next (ackedPda (withPdaDisp s d)) ∧ RowWritten s.pda.disp d r text)
    ∧ (∀ (row : Byte) (text : List Byte), row ≠ 64 → row ≠ 130 → 10 ≤ row.toNat →
      exec (.pdaWrite (row :: text)) s = .next (ackedPda (argFaulted s)))
    ∧ exec (.pdaWrite []) s = .next (ackedPda (argFaulted s)))

/-- Scroll, for both keypads. A legal region moves by one row, in either direction, and the vacated row is blank; any
other direction is a silent no-op, whatever the region; too few arguments, or an illegal region and a legal direction,
record a command-argument fault; nothing else changes but the common effects (R144). -/
def Obligations.ScrollRegion : Prop :=
  (∀ args : List Byte, commandOf .sq 0x0F args = .sqScroll args ∧ commandOf .pda 0x0F args = .pdaScroll args)
  ∧ (∀ (s : State) (st en : Byte) (more : List Byte), st.toNat < en.toNat →
    (GridWf 12 s.sq.disp → en.toNat ≤ 12 →
      (∃ d, exec (.sqScroll (st :: en :: 0x01 :: more)) s = .next (ackedSq (withSqDisp s d)) ∧ MovedDown s.sq.disp d st.toNat en.toNat)
      ∧ ∃ d, exec (.sqScroll (st :: en :: 0xFF :: more)) s = .next (ackedSq (withSqDisp s d)) ∧ MovedUp s.sq.disp d st.toNat en.toNat)
    ∧ (GridWf 10 s.pda.disp → en.toNat ≤ 10 →
      (∃ d, exec (.pdaScroll (st :: en :: 0x01 :: more)) s = .next (ackedPda (withPdaDisp s d)) ∧ MovedDown s.pda.disp d st.toNat en.toNat)
      ∧ ∃ d, exec (.pdaScroll (st :: en :: 0xFF :: more)) s = .next (ackedPda (withPdaDisp s d)) ∧ MovedUp s.pda.disp d st.toNat en.toNat))
  ∧ (∀ (s : State) (st en d : Byte) (more : List Byte), d ≠ 0x01 → d ≠ 0xFF →
    exec (.sqScroll (st :: en :: d :: more)) s = .next (ackedSq s)
    ∧ exec (.pdaScroll (st :: en :: d :: more)) s = .next (ackedPda s))
  ∧ (∀ (s : State) (args : List Byte), ScrollFaults 12 args → exec (.sqScroll args) s = .next (ackedSq (argFaulted s)))
  ∧ (∀ (s : State) (args : List Byte), ScrollFaults 10 args → exec (.pdaScroll args) s = .next (ackedPda (argFaulted s)))

/-- Invert line sets the region to the full width of a line below the last, and otherwise faults with no other change;
the PDA line byte is not remapped (R150). -/
def Obligations.InvertLine : Prop :=
  (∀ args : List Byte, commandOf .sq 0x08 args = .sqInvline args ∧ commandOf .pda 0x08 args = .pdaInvline args)
  ∧ ∀ (s : State),
    (∀ (l : Byte) (more : List Byte),
      (l.toNat < 12 → exec (.sqInvline (l :: more)) s = .next (ackedSq { s with sq := { s.sq with inv := ⟨true, l, 0, 16⟩ } }))
      ∧ (12 ≤ l.toNat → exec (.sqInvline (l :: more)) s = .next (ackedSq (argFaulted s)))
      ∧ (l.toNat < 10 → exec (.pdaInvline (l :: more)) s = .next (ackedPda { s with pda := { s.pda with inv := ⟨true, l, 0, 16⟩ } }))
      ∧ (10 ≤ l.toNat → exec (.pdaInvline (l :: more)) s = .next (ackedPda (argFaulted s))))
    ∧ exec (.sqInvline []) s = .next (ackedSq (argFaulted s))
    ∧ exec (.pdaInvline []) s = .next (ackedPda (argFaulted s))

/-- Invert range sets the region it names when the line is in the display and the columns are a non-empty range up to 16,
and otherwise faults with no other change (R151). -/
def Obligations.InvertRange : Prop :=
  (∀ args : List Byte, commandOf .sq 0x10 args = .sqInvrange args ∧ commandOf .pda 0x10 args = .pdaInvrange args)
  ∧ (∀ (s : State) (l st en : Byte) (more : List Byte), st.toNat < en.toNat → en.toNat ≤ 16 →
    (l.toNat < 12 → exec (.sqInvrange (l :: st :: en :: more)) s = .next (ackedSq { s with sq := { s.sq with inv := ⟨true, l, st, en⟩ } }))
    ∧ (l.toNat < 10 → exec (.pdaInvrange (l :: st :: en :: more)) s = .next (ackedPda { s with pda := { s.pda with inv := ⟨true, l, st, en⟩ } })))
  ∧ (∀ (s : State) (args : List Byte), RangeFaults 12 args → exec (.sqInvrange args) s = .next (ackedSq (argFaulted s)))
  ∧ (∀ (s : State) (args : List Byte), RangeFaults 10 args → exec (.pdaInvrange args) s = .next (ackedPda (argFaulted s)))

/-- Binary status: bit 4 is the spa, bit 0 the jets, bit 3 the heater, a set bit ON and a clear bit OFF; with no argument
all three become UNKNOWN and a command-argument fault is recorded (R167). -/
def Obligations.BinaryStatusDecodes : Prop :=
  (∀ args : List Byte, commandOf .spa 0x02 args = .spaBstatus args)
  ∧ ∀ (s : State),
    (∀ (m : Byte) (more : List Byte), exec (.spaBstatus (m :: more)) s = .next (ackedSpa { s with spa := { s.spa with
      st := ⟨if m.getLsbD 4 then .on else .off, if m.getLsbD 0 then .on else .off, if m.getLsbD 3 then .on else .off⟩ } }))
    ∧ exec (.spaBstatus []) s = .next (ackedSpa (argFaulted { s with spa := { s.spa with st := ⟨.unknown, .unknown, .unknown⟩ } }))

/-- Text status: the text it leaves, case by case in the order of R168, under every value of the OPEN offsets and
markers; nothing else changes but the common effects, and too few arguments leave an empty text and a fault (R168). The bytes of
the texts shown and of the suffixes are ASCII, which the spec takes from general knowledge (log 17). -/
def Obligations.TextStatusDecodes : Prop :=
  ∀ (s : State) (args : List Byte),
    commandOf .spa 0x03 args = .spaTstatus args ∧
    let shown (t : List Byte) := ackedSpa { s with spa := { s.spa with textLen := t.length, text := t ++ List.replicate (7 - t.length) 0x00 } }
    let off : Prop := Matches args s.par.spaPwroffOff [0x20, 0x2E, 0x20, 0x2E, 0x20, 0x2E]
    let set : Prop := Matches args s.par.spaSetOff s.par.spaSetMark.bytes
    let air : Prop := Matches args s.par.spaAirOff s.par.spaAirMark.bytes
    let h2o : Prop := Matches args s.par.spaH2oOff s.par.spaH2oMark.bytes
    (off → exec (.spaTstatus args) s = .next (shown [0x2E, 0x2E, 0x2E, 0x20, 0x2E, 0x2E, 0x2E]))
    ∧ (¬ off → args.length < s.par.spaTxtOff + 3 → exec (.spaTstatus args) s = .next
        (ackedSpa (argFaulted { s with spa := { s.spa with textLen := 0, text := List.replicate 7 0x00 } })))
    ∧ (∀ x y z, ¬ off → Matches args s.par.spaTxtOff [x, y, z] →
        ([x, y, z] = [0x30, 0x46, 0x46] → exec (.spaTstatus args) s = .next (shown [0x4F, 0x46, 0x46, 0x20, 0x48, 0x32, 0x4F]))
        ∧ ([x, y, z] ≠ [0x30, 0x46, 0x46] →
          (set → exec (.spaTstatus args) s = .next (shown [x, y, z, 0x20, 0x53, 0x45, 0x54]))
          ∧ (¬ set → air → exec (.spaTstatus args) s = .next (shown [x, y, z, 0x20, 0x41, 0x49, 0x52]))
          ∧ (¬ set → ¬ air → h2o → exec (.spaTstatus args) s = .next (shown [x, y, z, 0x20, 0x48, 0x32, 0x4F]))
          ∧ (¬ set → ¬ air → ¬ h2o → exec (.spaTstatus args) s = .next (shown [x, y, z]))))

/-- DISCARD leaves everything as it is (R102, R182). ACK fills the transmit buffer with the encoded reply, sets its length,
resets the position and touches nothing else (R118). -/
def Obligations.DiscardAndAck : Prop :=
  (∀ (d c : Byte) (args : List Byte) (s : State), exec (.discard d c args) s = .next s)
  ∧ ∀ (u : UnitId) (p : Byte) (s : State),
    ∃ b, exec (.ack u p) s = .next { s with txBuf := b, txLen := (encodeFrame 0x00 0x01 [u.ackByte, p]).length, txPos := 0 }
      ∧ b.take (encodeFrame 0x00 0x01 [u.ackByte, p]).length = encodeFrame 0x00 0x01 [u.ackByte, p]
      ∧ b.drop (encodeFrame 0x00 0x01 [u.ackByte, p]).length = s.txBuf.drop (encodeFrame 0x00 0x01 [u.ackByte, p]).length

/-! ### The host -/

/-- A CTRL write, at 0x000, sets the four enables from bits 3 to 0, ignores the rest and changes nothing else (R201); an
EVENTS write, at 0x008, clears exactly the bits written as 1 and changes nothing else (R209). -/
def Obligations.GlobalRegisterWrites : Prop :=
  ∀ (en : Enables) (v : Word) (s : State),
    decode en (.host (.write 0x000 v)) = .ok (.hCtrlWr v) ∧ decode en (.host (.write 0x008 v)) = .ok (.hEventsW1c v)
    ∧ (∃ c : BitVec 4, exec (.hCtrlWr v) s = .next { s with ctrl := c }
      ∧ c.getLsbD 0 = v.getLsbD 0 ∧ c.getLsbD 1 = v.getLsbD 1 ∧ c.getLsbD 2 = v.getLsbD 2 ∧ c.getLsbD 3 = v.getLsbD 3)
    ∧ (∃ e : BitVec 12, exec (.hEventsW1c v) s = .next { s with events := e }
      ∧ ∀ n, n < 12 → e.getLsbD n = (s.events.getLsbD n && !v.getLsbD n))

/-- A key write with a recognized index sets the unit's pending byte to the key map's byte; any other index has no
effect; only bits 3 to 0 count (R202, R203). -/
def Obligations.KeyWriteSetsPending : Prop :=
  ∀ (en : Enables) (v : Word) (s : State),
    let n := v.toNat % 16
    decode en (.host (.write 0x100 v)) = .ok (.hKeyWrSq v)
    ∧ decode en (.host (.write 0x400 v)) = .ok (.hKeyWrPda v)
    ∧ decode en (.host (.write 0x700 v)) = .ok (.hKeyWrSpa v)
    ∧ (∀ h : n < 6, exec (.hKeyWrSq v) s = .next { s with sq := { s.sq with pending := s.par.keymapSq[n] } })
    ∧ (6 ≤ n → exec (.hKeyWrSq v) s = .next s)
    ∧ (∀ h : n < 6, exec (.hKeyWrPda v) s = .next { s with pda := { s.pda with pending := s.par.keymapPda[n] } })
    ∧ (6 ≤ n → exec (.hKeyWrPda v) s = .next s)
    ∧ (∀ h : n < 9, exec (.hKeyWrSpa v) s = .next { s with spa := { s.spa with pending := s.par.keymapSpa[n] } })
    ∧ (9 ≤ n → exec (.hKeyWrSpa v) s = .next s)

/-- Reads of the global registers: the address each is read at, each field of the word, the counters as they are, and
nothing else changes (R32 to R36, R210). -/
def Obligations.GlobalRegisterReads : Prop :=
  ∀ (en : Enables) (s : State),
    (decode en (.host (.read 0x000)) = .ok .hCtrlRd ∧ ∃ v : Word, exec .hCtrlRd s = .next { s with hostRdata := v }
      ∧ v.extractLsb' 0 4 = s.ctrl ∧ v.extractLsb' 4 28 = 0)
    ∧ (decode en (.host (.read 0x004)) = .ok .hStatusRd ∧ ∃ v : Word, exec .hStatusRd s = .next { s with hostRdata := v }
      ∧ v.getLsbD 0 = decide (s.ds ≠ .stopped) ∧ v.extractLsb' 1 3 = dsCode s.ds ∧ v.extractLsb' 4 2 = ssCode s.ss
      ∧ v.extractLsb' 6 2 = 0 ∧ v.extractLsb' 8 8 = BitVec.ofNat 8 s.clen
      ∧ v.extractLsb' 16 8 = BitVec.ofNat 8 (min s.rxFifo.length 255) ∧ v.extractLsb' 24 8 = 0)
    ∧ (decode en (.host (.read 0x008)) = .ok .hEventsRd ∧ ∃ v : Word, exec .hEventsRd s = .next { s with hostRdata := v }
      ∧ v.extractLsb' 0 12 = s.events ∧ v.extractLsb' 12 20 = 0)
    ∧ (decode en (.host (.read 0x00C)) = .ok .hLastErrRd ∧ ∃ v : Word, exec .hLastErrRd s = .next { s with hostRdata := v }
      ∧ v.extractLsb' 0 4 = s.lastErr.cause ∧ v.extractLsb' 4 12 = 0 ∧ v.extractLsb' 16 16 = s.lastErr.info)
    ∧ (decode en (.host (.read 0x010)) = .ok .hCntFrameOkRd ∧ exec .hCntFrameOkRd s = .next { s with hostRdata := s.cnt.frameOk })
    ∧ (decode en (.host (.read 0x014)) = .ok .hCntAddressedRd ∧ exec .hCntAddressedRd s = .next { s with hostRdata := s.cnt.addressed })
    ∧ (decode en (.host (.read 0x018)) = .ok .hCntErrChecksumRd ∧ exec .hCntErrChecksumRd s = .next { s with hostRdata := s.cnt.errChecksum })
    ∧ (decode en (.host (.read 0x01C)) = .ok .hCntErrEscapeRd ∧ exec .hCntErrEscapeRd s = .next { s with hostRdata := s.cnt.errEscape })
    ∧ (decode en (.host (.read 0x020)) = .ok .hCntErrOversizeRd ∧ exec .hCntErrOversizeRd s = .next { s with hostRdata := s.cnt.errOversize })
    ∧ (decode en (.host (.read 0x024)) = .ok .hCntErrRuntRd ∧ exec .hCntErrRuntRd s = .next { s with hostRdata := s.cnt.errRunt })
    ∧ (decode en (.host (.read 0x028)) = .ok .hCntErrLineRd ∧ exec .hCntErrLineRd s = .next { s with hostRdata := s.cnt.errLine })
    ∧ (decode en (.host (.read 0x02C)) = .ok .hCntErrOverrunRd ∧ exec .hCntErrOverrunRd s = .next { s with hostRdata := s.cnt.errOverrun })
    ∧ (decode en (.host (.read 0x030)) = .ok .hCntReplySentRd ∧ exec .hCntReplySentRd s = .next { s with hostRdata := s.cnt.replySent })
    ∧ (decode en (.host (.read 0x034)) = .ok .hCntUnknownCmdRd ∧ exec .hCntUnknownCmdRd s = .next { s with hostRdata := s.cnt.unknownCmd })
    ∧ (decode en (.host (.read 0x038)) = .ok .hCntErrCmdArgRd ∧ exec .hCntErrCmdArgRd s = .next { s with hostRdata := s.cnt.errCmdArg })
    ∧ (decode en (.host (.read 0x03C)) = .ok .hCntErrHostRd ∧ exec .hCntErrHostRd s = .next { s with hostRdata := s.cnt.errHost })

/-- Reads of a unit's pending byte, sequence counter, constants, inverted region and spa status, each at its address,
field by field; nothing else changes (R44, R205, R207, R211, R212). -/
def Obligations.UnitRegisterReads : Prop :=
  ∀ (en : Enables) (s : State),
    (decode en (.host (.read 0x100)) = .ok .hPendingRdSq ∧ decode en (.host (.read 0x400)) = .ok .hPendingRdPda
      ∧ decode en (.host (.read 0x700)) = .ok .hPendingRdSpa ∧ decode en (.host (.read 0x110)) = .ok .hSeqRdSq
      ∧ decode en (.host (.read 0x410)) = .ok .hSeqRdPda ∧ decode en (.host (.read 0x710)) = .ok .hSeqRdSpa
      ∧ decode en (.host (.read 0x10C)) = .ok .hDimsRdSq ∧ decode en (.host (.read 0x40C)) = .ok .hDimsRdPda
      ∧ decode en (.host (.read 0x70C)) = .ok .hDimsRdSpa ∧ decode en (.host (.read 0x104)) = .ok .hInvRdSq
      ∧ decode en (.host (.read 0x404)) = .ok .hInvRdPda ∧ decode en (.host (.read 0x704)) = .ok .hSpaStateRd)
    ∧ (∃ v : Word, exec .hPendingRdSq s = .next { s with hostRdata := v } ∧ v.toNat = s.sq.pending.toNat)
    ∧ (∃ v : Word, exec .hPendingRdPda s = .next { s with hostRdata := v } ∧ v.toNat = s.pda.pending.toNat)
    ∧ (∃ v : Word, exec .hPendingRdSpa s = .next { s with hostRdata := v } ∧ v.toNat = s.spa.pending.toNat)
    ∧ exec .hSeqRdSq s = .next { s with hostRdata := s.sq.seq }
    ∧ exec .hSeqRdPda s = .next { s with hostRdata := s.pda.seq }
    ∧ exec .hSeqRdSpa s = .next { s with hostRdata := s.spa.seq }
    ∧ exec .hDimsRdSq s = .next { s with hostRdata := 0x8B400C10 }
    ∧ exec .hDimsRdPda s = .next { s with hostRdata := 0x40600A10 }
    ∧ exec .hDimsRdSpa s = .next { s with hostRdata := 0x00200000 }
    ∧ (∃ v : Word, exec .hInvRdSq s = .next { s with hostRdata := v }
      ∧ v.getLsbD 0 = s.sq.inv.valid ∧ v.extractLsb' 1 7 = 0 ∧ v.extractLsb' 8 8 = s.sq.inv.line
      ∧ v.extractLsb' 16 8 = s.sq.inv.start ∧ v.extractLsb' 24 8 = s.sq.inv.stop)
    ∧ (∃ v : Word, exec .hInvRdPda s = .next { s with hostRdata := v }
      ∧ v.getLsbD 0 = s.pda.inv.valid ∧ v.extractLsb' 1 7 = 0 ∧ v.extractLsb' 8 8 = s.pda.inv.line
      ∧ v.extractLsb' 16 8 = s.pda.inv.start ∧ v.extractLsb' 24 8 = s.pda.inv.stop)
    ∧ (∃ v : Word, exec .hSpaStateRd s = .next { s with hostRdata := v }
      ∧ v.extractLsb' 0 2 = triCode s.spa.st.spa ∧ v.extractLsb' 2 2 = triCode s.spa.st.jets
      ∧ v.extractLsb' 4 2 = triCode s.spa.st.heat ∧ v.extractLsb' 6 26 = 0)

/-- Reads of the byte windows and of the lengths that go with them, each at its addresses: byte `n` of word `j` is byte
`4j + n` of the window, the display's cell `k` being row `k / 16`, column `k mod 16`, and 0 past what the window defines
(R204, R206, R208). -/
def Obligations.WindowReads : Prop :=
  ∀ (en : Enables) (s : State), GridWf 12 s.sq.disp → GridWf 10 s.pda.disp → s.sq.kstat.length = 121 → s.pda.kstat.length = 121 →
    s.spa.text.length = 7 →
    (∀ (a : HostAddr) (j : BitVec 6), a.toNat = 0x200 + 4 * j.toNat → decode en (.host (.read a)) = .ok (.hDispRdSq j))
    ∧ (∀ (a : HostAddr) (j : BitVec 6), a.toNat = 0x500 + 4 * j.toNat → decode en (.host (.read a)) = .ok (.hDispRdPda j))
    ∧ (∀ (a : HostAddr) (j : BitVec 5), a.toNat = 0x180 + 4 * j.toNat → decode en (.host (.read a)) = .ok (.hKstatRdSq j))
    ∧ (∀ (a : HostAddr) (j : BitVec 5), a.toNat = 0x480 + 4 * j.toNat → decode en (.host (.read a)) = .ok (.hKstatRdPda j))
    ∧ (∀ (a : HostAddr) (j : BitVec 1), a.toNat = 0x720 + 4 * j.toNat → decode en (.host (.read a)) = .ok (.hSpaTextRd j))
    ∧ (decode en (.host (.read 0x108)) = .ok .hKstatLenRdSq ∧ decode en (.host (.read 0x408)) = .ok .hKstatLenRdPda
      ∧ decode en (.host (.read 0x708)) = .ok .hSpaTextLenRd)
    ∧ (∀ j : BitVec 6, ∃ v : Word, exec (.hDispRdSq j) s = .next { s with hostRdata := v }
      ∧ ∀ n, n < 4 → some (v.extractLsb' (8 * n) 8) =
          if 4 * j.toNat + n < 192 then cell s.sq.disp ((4 * j.toNat + n) / 16) ((4 * j.toNat + n) % 16) else some 0)
    ∧ (∀ j : BitVec 6, ∃ v : Word, exec (.hDispRdPda j) s = .next { s with hostRdata := v }
      ∧ ∀ n, n < 4 → some (v.extractLsb' (8 * n) 8) =
          if 4 * j.toNat + n < 160 then cell s.pda.disp ((4 * j.toNat + n) / 16) ((4 * j.toNat + n) % 16) else some 0)
    ∧ (∀ j : BitVec 5, ∃ v : Word, exec (.hKstatRdSq j) s = .next { s with hostRdata := v }
      ∧ ∀ n, n < 4 → some (v.extractLsb' (8 * n) 8) = if 4 * j.toNat + n < 121 then s.sq.kstat[4 * j.toNat + n]? else some 0)
    ∧ (∀ j : BitVec 5, ∃ v : Word, exec (.hKstatRdPda j) s = .next { s with hostRdata := v }
      ∧ ∀ n, n < 4 → some (v.extractLsb' (8 * n) 8) = if 4 * j.toNat + n < 121 then s.pda.kstat[4 * j.toNat + n]? else some 0)
    ∧ (∀ j : BitVec 1, ∃ v : Word, exec (.hSpaTextRd j) s = .next { s with hostRdata := v }
      ∧ ∀ n, n < 4 → some (v.extractLsb' (8 * n) 8) = if 4 * j.toNat + n < 7 then s.spa.text[4 * j.toNat + n]? else some 0)
    ∧ (∃ v : Word, exec .hKstatLenRdSq s = .next { s with hostRdata := v } ∧ (s.sq.kstatLen ≤ 121 → v.toNat = s.sq.kstatLen))
    ∧ (∃ v : Word, exec .hKstatLenRdPda s = .next { s with hostRdata := v } ∧ (s.pda.kstatLen ≤ 121 → v.toNat = s.pda.kstatLen))
    ∧ (∃ v : Word, exec .hSpaTextLenRd s = .next { s with hostRdata := v } ∧ (s.spa.textLen ≤ 7 → v.toNat = s.spa.textLen))

/-- A misaligned access, read or write, is the misaligned instruction: it records HOST_ACCESS with its address, a read
returns 0, and nothing else changes (R72). -/
def Obligations.MisalignedAccessFaults : Prop :=
  (∀ (en : Enables) (acc : HostAccess), acc.addr.toNat % 4 ≠ 0 → decode en (.host acc) = .ok (.hMisaligned acc))
  ∧ ∀ (s : State) (a : HostAddr) (v : Word),
    exec (.hMisaligned (.read a)) s = .next { s with
      hostRdata := 0, lastErr := ⟨8, a.setWidth 16⟩, cnt := { s.cnt with errHost := s.cnt.errHost + 1 }, events := s.events ||| 0x010#12 }
    ∧ exec (.hMisaligned (.write a v)) s = .next { s with
      lastErr := ⟨8, a.setWidth 16⟩, cnt := { s.cnt with errHost := s.cnt.errHost + 1 }, events := s.events ||| 0x010#12 }

/-- An aligned read of an address the map does not list, and an aligned write to any address but CTRL, EVENTS and the
three KEY registers, is the unmapped instruction: the read returns 0, the write is ignored, and no fault is recorded
(R76, R78). -/
def Obligations.UnmappedAccessIsQuiet : Prop :=
  (∀ (en : Enables) (a : HostAddr) (v : Word), a.toNat % 4 = 0 →
    (readMapped a = false → decode en (.host (.read a)) = .ok (.hUnmapped (.read a)))
    ∧ (a.toNat ≠ 0x000 → a.toNat ≠ 0x008 → a.toNat ≠ 0x100 → a.toNat ≠ 0x400 → a.toNat ≠ 0x700 →
      decode en (.host (.write a v)) = .ok (.hUnmapped (.write a v))))
  ∧ ∀ (s : State) (a : HostAddr) (v : Word),
    exec (.hUnmapped (.read a)) s = .next { s with hostRdata := 0 } ∧ exec (.hUnmapped (.write a v)) s = .next s

/-- Only three writes have effects. An aligned read changes nothing but the data it returned, and an aligned write to any
address but CTRL, EVENTS and the KEY registers changes nothing (R78). -/
def Obligations.OnlyThreeWritesHaveEffects : Prop :=
  ∀ (s : State) (a : HostAddr) (rest : List Move), a.toNat % 4 = 0 →
    (s.schedule = .host (.read a) :: rest → ∃ v : Word, step s = .next { s with schedule := rest, hostRdata := v })
    ∧ (∀ v : Word, a.toNat ≠ 0x000 → a.toNat ≠ 0x008 → a.toNat ≠ 0x100 → a.toNat ≠ 0x400 → a.toNat ≠ 0x700 →
      s.schedule = .host (.write a v) :: rest → step s = .next { s with schedule := rest })

/-! ### Whole-machine rules -/

/-- Unit storage is written only by EXEC steps: any other step but reset leaves all of it, and the pending byte of a unit
too unless it is a host write to that unit's KEY register (R87). -/
def Obligations.StorageWrittenOnlyByExec : Prop :=
  ∀ s t : State, step s = .next t → s.nextMove ≠ .reset → ¬ ExecNext s →
    storage t = storage s
    ∧ ((∀ v, s.nextMove ≠ .host (.write 0x100 v)) → t.sq.pending = s.sq.pending)
    ∧ ((∀ v, s.nextMove ≠ .host (.write 0x400 v)) → t.pda.pending = s.pda.pending)
    ∧ ((∀ v, s.nextMove ≠ .host (.write 0x700 v)) → t.spa.pending = s.spa.pending)

/-- `SEQ_u` counts the EXEC steps of unit `u`: it is 0 at reset, and every step but reset adds 1 to it if it is an EXEC step for `u`, and leaves
it otherwise (R42). -/
def Obligations.SequenceCountsExecSteps : Prop :=
  (∀ u : UnitId, State.reset.seq u = 0)
  ∧ ∀ (s t : State) (u : UnitId), step s = .next t → s.nextMove ≠ .reset →
    (ExecNext s ∧ s.fUnit = u → t.seq u = s.seq u + 1) ∧ (¬ (ExecNext s ∧ s.fUnit = u) → t.seq u = s.seq u)

/-- The snapshot protocol: if `SEQ_u` is the same before and after fewer than 2^32 steps without a reset, then none of
those steps was an EXEC step of unit `u`, and all that only EXEC steps write in unit `u`, its storage but for the pending
byte, which key writes write too, is the same before and after (R83, R87). -/
def Obligations.SameSequenceSameSnapshot : Prop :=
  ∀ (u : UnitId) (n : Nat) (s t : State), n < 4294967296 → Move.reset ∉ s.schedule →
    Host.Core.run core n s = .next t → t.seq u = s.seq u →
    (∀ k m, k < n → Host.Core.run core k s = .next m → ¬ (ExecNext m ∧ m.fUnit = u))
    ∧ (u = .sq → (storage t).1 = (storage s).1)
    ∧ (u = .pda → (storage t).2.1 = (storage s).2.1)
    ∧ (u = .spa → (storage t).2.2 = (storage s).2.2)

/-- Once a frame is dispatched, the unit enables matter no more: whatever else the bits SQ_EN, PDA_EN and SPA_EN held, the
EXEC step, the gap, the reply and its end are the same (R191). -/
def Obligations.EnablesAreSampledAtDispatch : Prop :=
  ∀ (s t : State) (c : BitVec 4) (rest : List Move), EngineNext s rest → s.ds = .exec ∨ s.ds = .gap ∨ s.ds = .tx →
    c.getLsbD 0 = s.ctrl.getLsbD 0 → step s = .next t → step { s with ctrl := c } = .next { t with ctrl := c }

/-- Two key writes with no EXEC step between: the reply to the next SQ command carries the second key, and then none is
pending (R55, R88). -/
def Obligations.LastKeyWriteWins : Prop :=
  ∀ (s : State) (v w : Word) (i : Instr) (h : w.toNat % 16 < 6), i.unit? = some .sq →
    ∃ s1 s2 s3, exec (.hKeyWrSq v) s = .next s1 ∧ exec (.hKeyWrSq w) s1 = .next s2 ∧ exec i s2 = .next s3
      ∧ s3.txBuf.take s3.txLen = encodeFrame 0x00 0x01 [0x8B, s.par.keymapSq[w.toNat % 16]]
      ∧ s3.sq.pending = 0x00

/-- A reset in TX loses the rest of the reply: the line has the characters of the reply that have ended by the reset
and no more, the driver is off, and at every time before the reply's end those are fewer than the frame has, so that its
trailer is not whole (R252). The pending byte it carried is lost (R262). The trace is the model's form (log 10), and so is the last character of a cut reply
(log 22). -/
def Obligations.ResetCutsTheReply : Prop :=
  ∀ (s : State) (rest : List Move), s.Wf → s.ds = .tx → s.schedule = .reset :: rest →
    ∃ (t : State) (p : Byte) (before : List LineOut), step s = .next t
      ∧ t.ds = .stopped ∧ t.de = false ∧ t.txLen = 0 ∧ t.pending s.fUnit = 0x00
      ∧ s.txBuf.take s.txLen = wireOf s.fUnit p
      ∧ s.lineOut = before ++ [.driver s.txT0 true] ++ sentAs s 0 ((wireOf s.fUnit p).take s.txPos)
      ∧ t.lineOut = before ++ [.driver s.txT0 true] ++ (sentAs s 0 (wireOf s.fUnit p)).filter (endsBy (byteNs s.par) s.now)
          ++ [.driver s.now false]
      ∧ (s.now < s.txT0 + (wireOf s.fUnit p).length * byteNs s.par →
          ((sentAs s 0 (wireOf s.fUnit p)).filter (endsBy (byteNs s.par) s.now)).length < (wireOf s.fUnit p).length)
end

