-- ==== Sys2Proof/Laws/Exec.lean ====
section
/-! SUPPORT. What `exec` answers for each instruction, in terms of the shared operations: one equation per constructor,
so that no later proof unfolds the match of Dispatch.lean. -/

namespace Sys2Proof.Machine

@[simp] theorem exec_sqProbe (args : List Byte) (s : State) :
    exec (.sqProbe args) s = .next (finishCommand .sq s) := rfl

@[simp] theorem exec_sqStatus (args : List Byte) (s : State) :
    exec (.sqStatus args) s = .next (finishCommand .sq (keypadStatus .sq args s)) := rfl

@[simp] theorem exec_sqWrite (args : List Byte) (s : State) :
    exec (.sqWrite args) s = .next (finishCommand .sq (keypadWrite .sq args s)) := rfl

@[simp] theorem exec_sqHandshake (args : List Byte) (s : State) :
    exec (.sqHandshake args) s = .next (finishCommand .sq s) := rfl

@[simp] theorem exec_sqInvline (args : List Byte) (s : State) :
    exec (.sqInvline args) s = .next (finishCommand .sq (keypadInvline .sq args s)) := rfl

@[simp] theorem exec_sqClear (args : List Byte) (s : State) :
    exec (.sqClear args) s = .next (finishCommand .sq (keypadClear .sq s)) := rfl

@[simp] theorem exec_sqScroll (args : List Byte) (s : State) :
    exec (.sqScroll args) s = .next (finishCommand .sq (keypadScroll .sq args s)) := rfl

@[simp] theorem exec_sqInvrange (args : List Byte) (s : State) :
    exec (.sqInvrange args) s = .next (finishCommand .sq (keypadInvrange .sq args s)) := rfl

@[simp] theorem exec_sqUnknown (cmd : Byte) (args : List Byte) (s : State) :
    exec (.sqUnknown cmd args) s = .next (finishCommand .sq (countUnknown s)) := rfl

@[simp] theorem exec_pdaProbe (args : List Byte) (s : State) :
    exec (.pdaProbe args) s = .next (finishCommand .pda s) := rfl

@[simp] theorem exec_pdaStatus (args : List Byte) (s : State) :
    exec (.pdaStatus args) s = .next (finishCommand .pda (keypadStatus .pda args s)) := rfl

@[simp] theorem exec_pdaWrite (args : List Byte) (s : State) :
    exec (.pdaWrite args) s = .next (finishCommand .pda (keypadWrite .pda args s)) := rfl

@[simp] theorem exec_pdaHandshake (args : List Byte) (s : State) :
    exec (.pdaHandshake args) s = .next (finishCommand .pda s) := rfl

@[simp] theorem exec_pdaInvline (args : List Byte) (s : State) :
    exec (.pdaInvline args) s = .next (finishCommand .pda (keypadInvline .pda args s)) := rfl

@[simp] theorem exec_pdaClear (args : List Byte) (s : State) :
    exec (.pdaClear args) s = .next (finishCommand .pda (keypadClear .pda s)) := rfl

@[simp] theorem exec_pdaScroll (args : List Byte) (s : State) :
    exec (.pdaScroll args) s = .next (finishCommand .pda (keypadScroll .pda args s)) := rfl

@[simp] theorem exec_pdaInvrange (args : List Byte) (s : State) :
    exec (.pdaInvrange args) s = .next (finishCommand .pda (keypadInvrange .pda args s)) := rfl

@[simp] theorem exec_pdaUnknown (cmd : Byte) (args : List Byte) (s : State) :
    exec (.pdaUnknown cmd args) s = .next (finishCommand .pda (countUnknown s)) := rfl

@[simp] theorem exec_spaProbe (args : List Byte) (s : State) :
    exec (.spaProbe args) s = .next (finishCommand .spa s) := rfl

@[simp] theorem exec_spaBstatus (args : List Byte) (s : State) :
    exec (.spaBstatus args) s = .next (finishCommand .spa (spaBstatus args s)) := rfl

@[simp] theorem exec_spaTstatus (args : List Byte) (s : State) :
    exec (.spaTstatus args) s = .next (finishCommand .spa (spaTstatus args s)) := rfl

@[simp] theorem exec_spaChreq (args : List Byte) (s : State) :
    exec (.spaChreq args) s = .next (finishCommand .spa s) := rfl

@[simp] theorem exec_spaUnknown (cmd : Byte) (args : List Byte) (s : State) :
    exec (.spaUnknown cmd args) s = .next (finishCommand .spa (countUnknown s)) := rfl

@[simp] theorem exec_discard (dest : Byte) (cmd : Byte) (args : List Byte) (s : State) :
    exec (.discard dest cmd args) s = .next s := rfl

@[simp] theorem exec_ack (u : UnitId) (p : Byte) (s : State) :
    exec (.ack u p) s = .next (encodeReply u p s) := rfl

@[simp] theorem exec_hCtrlWr (v : Word) (s : State) :
    exec (.hCtrlWr v) s = .next { s with ctrl := v.setWidth 4 } := rfl

@[simp] theorem exec_hCtrlRd (s : State) :
    exec .hCtrlRd s = .next (hostReturn s.ctrlImage s) := rfl

@[simp] theorem exec_hStatusRd (s : State) :
    exec .hStatusRd s = .next (hostReturn s.statusImage s) := rfl

@[simp] theorem exec_hEventsRd (s : State) :
    exec .hEventsRd s = .next (hostReturn s.eventsImage s) := rfl

@[simp] theorem exec_hEventsW1c (v : Word) (s : State) :
    exec (.hEventsW1c v) s = .next { s with events := s.events &&& ~~~(v.setWidth 12) } := rfl

@[simp] theorem exec_hLastErrRd (s : State) :
    exec .hLastErrRd s = .next (hostReturn s.lastErrImage s) := rfl

@[simp] theorem exec_hCntFrameOkRd (s : State) :
    exec .hCntFrameOkRd s = .next (hostReturn s.cnt.frameOk s) := rfl

@[simp] theorem exec_hCntAddressedRd (s : State) :
    exec .hCntAddressedRd s = .next (hostReturn s.cnt.addressed s) := rfl

@[simp] theorem exec_hCntErrChecksumRd (s : State) :
    exec .hCntErrChecksumRd s = .next (hostReturn s.cnt.errChecksum s) := rfl

@[simp] theorem exec_hCntErrEscapeRd (s : State) :
    exec .hCntErrEscapeRd s = .next (hostReturn s.cnt.errEscape s) := rfl

@[simp] theorem exec_hCntErrOversizeRd (s : State) :
    exec .hCntErrOversizeRd s = .next (hostReturn s.cnt.errOversize s) := rfl

@[simp] theorem exec_hCntErrRuntRd (s : State) :
    exec .hCntErrRuntRd s = .next (hostReturn s.cnt.errRunt s) := rfl

@[simp] theorem exec_hCntErrLineRd (s : State) :
    exec .hCntErrLineRd s = .next (hostReturn s.cnt.errLine s) := rfl

@[simp] theorem exec_hCntErrOverrunRd (s : State) :
    exec .hCntErrOverrunRd s = .next (hostReturn s.cnt.errOverrun s) := rfl

@[simp] theorem exec_hCntReplySentRd (s : State) :
    exec .hCntReplySentRd s = .next (hostReturn s.cnt.replySent s) := rfl

@[simp] theorem exec_hCntUnknownCmdRd (s : State) :
    exec .hCntUnknownCmdRd s = .next (hostReturn s.cnt.unknownCmd s) := rfl

@[simp] theorem exec_hCntErrCmdArgRd (s : State) :
    exec .hCntErrCmdArgRd s = .next (hostReturn s.cnt.errCmdArg s) := rfl

@[simp] theorem exec_hCntErrHostRd (s : State) :
    exec .hCntErrHostRd s = .next (hostReturn s.cnt.errHost s) := rfl

@[simp] theorem exec_hKeyWrSq (v : Word) (s : State) :
    exec (.hKeyWrSq v) s = .next (writeKey .sq v s) := rfl

@[simp] theorem exec_hPendingRdSq (s : State) :
    exec .hPendingRdSq s = .next (hostReturn (s.sq.pending.setWidth 32) s) := rfl

@[simp] theorem exec_hInvRdSq (s : State) :
    exec .hInvRdSq s = .next (hostReturn s.sq.inv.image s) := rfl

@[simp] theorem exec_hKstatLenRdSq (s : State) :
    exec .hKstatLenRdSq s = .next (hostReturn ((BitVec.ofNat 8 s.sq.kstatLen).setWidth 32) s) := rfl

@[simp] theorem exec_hDimsRdSq (s : State) :
    exec .hDimsRdSq s = .next (hostReturn (dimsImage .sq) s) := rfl

@[simp] theorem exec_hSeqRdSq (s : State) :
    exec .hSeqRdSq s = .next (hostReturn s.sq.seq s) := rfl

@[simp] theorem exec_hKstatRdSq (j : BitVec 5) (s : State) :
    exec (.hKstatRdSq j) s = .next (hostReturn (windowWord s.sq.kstatByte j.toNat) s) := rfl

@[simp] theorem exec_hDispRdSq (j : BitVec 6) (s : State) :
    exec (.hDispRdSq j) s = .next (hostReturn (windowWord (s.sq.dispByte KeypadId.sq.rows) j.toNat) s) := rfl

@[simp] theorem exec_hKeyWrPda (v : Word) (s : State) :
    exec (.hKeyWrPda v) s = .next (writeKey .pda v s) := rfl

@[simp] theorem exec_hPendingRdPda (s : State) :
    exec .hPendingRdPda s = .next (hostReturn (s.pda.pending.setWidth 32) s) := rfl

@[simp] theorem exec_hInvRdPda (s : State) :
    exec .hInvRdPda s = .next (hostReturn s.pda.inv.image s) := rfl

@[simp] theorem exec_hKstatLenRdPda (s : State) :
    exec .hKstatLenRdPda s = .next (hostReturn ((BitVec.ofNat 8 s.pda.kstatLen).setWidth 32) s) := rfl

@[simp] theorem exec_hDimsRdPda (s : State) :
    exec .hDimsRdPda s = .next (hostReturn (dimsImage .pda) s) := rfl

@[simp] theorem exec_hSeqRdPda (s : State) :
    exec .hSeqRdPda s = .next (hostReturn s.pda.seq s) := rfl

@[simp] theorem exec_hKstatRdPda (j : BitVec 5) (s : State) :
    exec (.hKstatRdPda j) s = .next (hostReturn (windowWord s.pda.kstatByte j.toNat) s) := rfl

@[simp] theorem exec_hDispRdPda (j : BitVec 6) (s : State) :
    exec (.hDispRdPda j) s = .next (hostReturn (windowWord (s.pda.dispByte KeypadId.pda.rows) j.toNat) s) := rfl

@[simp] theorem exec_hKeyWrSpa (v : Word) (s : State) :
    exec (.hKeyWrSpa v) s = .next (writeKey .spa v s) := rfl

@[simp] theorem exec_hPendingRdSpa (s : State) :
    exec .hPendingRdSpa s = .next (hostReturn (s.spa.pending.setWidth 32) s) := rfl

@[simp] theorem exec_hDimsRdSpa (s : State) :
    exec .hDimsRdSpa s = .next (hostReturn (dimsImage .spa) s) := rfl

@[simp] theorem exec_hSeqRdSpa (s : State) :
    exec .hSeqRdSpa s = .next (hostReturn s.spa.seq s) := rfl

@[simp] theorem exec_hSpaStateRd (s : State) :
    exec .hSpaStateRd s = .next (hostReturn s.spa.st.image s) := rfl

@[simp] theorem exec_hSpaTextLenRd (s : State) :
    exec .hSpaTextLenRd s = .next (hostReturn ((BitVec.ofNat 8 s.spa.textLen).setWidth 32) s) := rfl

@[simp] theorem exec_hSpaTextRd (j : BitVec 1) (s : State) :
    exec (.hSpaTextRd j) s = .next (hostReturn (windowWord s.spa.textByte j.toNat) s) := rfl

@[simp] theorem exec_hMisaligned (acc : HostAccess) (s : State) :
    exec (.hMisaligned acc) s = .next (raiseFault .hostAccess (acc.addr.setWidth 16) (returnZero acc s)) := rfl

@[simp] theorem exec_hUnmapped (acc : HostAccess) (s : State) :
    exec (.hUnmapped acc) s = .next (returnZero acc s) := rfl

end Sys2Proof.Machine
end

