-- ==== Sys2Proof/Laws/Access.lean ====
section
/-! SUPPORT. What a host access can do, said once: the row it selects and the state it leaves. -/

namespace Sys2Proof.Machine

/-- The address of a unit's KEY register (20_memory R75). -/
def keyAddr : UnitId → HostAddr
  | .sq => 0x100
  | .pda => 0x400
  | .spa => 0x700

theorem key_bit12 (acc : HostAccess) : acc.key.getLsbD 12 = acc.isWrite := by
  rw [HostAccess.key, BitVec.getLsbD_append]
  cases acc <;> simp [HostAccess.isWrite]

theorem key_exact (acc : HostAccess) (p : BitVec 13) (h : acc.key &&& 0x1FFF#13 = p) :
    acc.addr = p.extractLsb' 0 12 := by
  have e : acc.key = p := by
    rw [← h, show (0x1FFF#13 : BitVec 13) = BitVec.allOnes 13 from rfl, BitVec.and_allOnes]
  rw [← e, HostAccess.key]
  apply BitVec.eq_of_getLsbD_eq
  intro n hn
  rw [BitVec.getLsbD_extractLsb', BitVec.getLsbD_append]
  simp [hn]

/-- The rows with a write key are the five write registers. -/
theorem write_rows (r : HostRow) (hr : r ∈ hostRows) (a : HostAddr) (v : Word) (h : r.takes (.write a v) = true) :
    (a = 0x000 ∧ r.instr (.write a v) = .hCtrlWr v) ∨ (a = 0x008 ∧ r.instr (.write a v) = .hEventsW1c v)
    ∨ (a = 0x100 ∧ r.instr (.write a v) = .hKeyWrSq v) ∨ (a = 0x400 ∧ r.instr (.write a v) = .hKeyWrPda v)
    ∨ (a = 0x700 ∧ r.instr (.write a v) = .hKeyWrSpa v) := by
  simp only [HostRow.takes, beq_iff_eq] at h
  fin_cases hr
  all_goals first
    | (exfalso
       have h1 := congrArg (·.getLsbD 12) h
       simp only [BitVec.getLsbD_and, key_bit12] at h1
       simp [HostAccess.isWrite] at h1; done)
    | (have h2 := key_exact _ _ h
       simp only [HostAccess.addr] at h2
       subst h2
       simp [HostAccess.data])

/-- The rows with a read key return a value and do nothing else. -/
theorem read_rows (r : HostRow) (hr : r ∈ hostRows) (a : HostAddr) (h : r.takes (.read a) = true) :
    ∃ f : State → Word, ∀ s, exec (r.instr (.read a)) s = .next (hostReturn (f s) s) := by
  simp only [HostRow.takes, beq_iff_eq] at h
  fin_cases hr
  all_goals first
    | (exfalso
       have h1 := congrArg (·.getLsbD 12) h
       simp only [BitVec.getLsbD_and, key_bit12] at h1
       simp [HostAccess.isWrite] at h1; done)
    | exact ⟨_, fun s => rfl⟩

/-- An access is misaligned, unmapped, or taken by a row. -/
theorem accessInstr_cases (acc : HostAccess) :
    (acc.addr.extractLsb' 0 2 ≠ 0 ∧ accessInstr acc = .hMisaligned acc)
    ∨ (acc.addr.extractLsb' 0 2 = 0 ∧ accessInstr acc = .hUnmapped acc)
    ∨ (acc.addr.extractLsb' 0 2 = 0 ∧ ∃ r ∈ hostRows, r.takes acc = true ∧ accessInstr acc = r.instr acc) := by
  by_cases h : acc.addr.extractLsb' 0 2 ≠ 0
  · exact .inl ⟨h, by rw [accessInstr, if_pos h]⟩
  · simp only [accessInstr, if_neg h]
    have h0 : acc.addr.extractLsb' 0 2 = 0 := by simpa using h
    cases hf : hostRows.find? (·.takes acc) with
    | none => exact .inr (.inl ⟨h0, rfl⟩)
    | some r => exact .inr (.inr ⟨h0, r, List.mem_of_find?_eq_some hf, by simpa using List.find?_some hf, rfl⟩)

/-- What a host access can do: a read returns a value, or 0 with a fault when it is misaligned. A write is a register
write, a misaligned access, or nothing. -/
theorem exec_access (acc : HostAccess) (s : State) :
    (∃ a v, acc = .read a ∧ a.extractLsb' 0 2 = 0 ∧ exec (accessInstr acc) s = .next (hostReturn v s))
    ∨ (∃ a, acc = .read a ∧ a.extractLsb' 0 2 ≠ 0
        ∧ exec (accessInstr acc) s = .next (raiseFault .hostAccess (a.setWidth 16) (hostReturn 0 s)))
    ∨ (∃ a v, acc = .write a v ∧ a.extractLsb' 0 2 ≠ 0
        ∧ exec (accessInstr acc) s = .next (raiseFault .hostAccess (a.setWidth 16) s))
    ∨ (∃ a v, acc = .write a v ∧ exec (accessInstr acc) s = .next s)
    ∨ (∃ v, acc = .write 0x000 v ∧ exec (accessInstr acc) s = .next { s with ctrl := v.setWidth 4 })
    ∨ (∃ v, acc = .write 0x008 v
        ∧ exec (accessInstr acc) s = .next { s with events := s.events &&& ~~~(v.setWidth 12) })
    ∨ (∃ v, acc = .write 0x100 v ∧ exec (accessInstr acc) s = .next (writeKey .sq v s))
    ∨ (∃ v, acc = .write 0x400 v ∧ exec (accessInstr acc) s = .next (writeKey .pda v s))
    ∨ (∃ v, acc = .write 0x700 v ∧ exec (accessInstr acc) s = .next (writeKey .spa v s)) := by
  rcases accessInstr_cases acc with ⟨h, e⟩ | ⟨h, e⟩ | ⟨h, r, hr, ht, e⟩
  · cases acc with
    | read a => exact .inr (.inl ⟨a, rfl, h, by rw [e]; rfl⟩)
    | write a v => exact .inr (.inr (.inl ⟨a, v, rfl, h, by rw [e]; rfl⟩))
  · cases acc with
    | read a => exact .inl ⟨a, 0, rfl, h, by rw [e]; rfl⟩
    | write a v => exact .inr (.inr (.inr (.inl ⟨a, v, rfl, by rw [e]; rfl⟩)))
  · cases acc with
    | read a =>
      obtain ⟨f, hf⟩ := read_rows r hr a ht
      exact .inl ⟨a, f s, rfl, h, by rw [e, hf]⟩
    | write a v =>
      rw [e]
      rcases write_rows r hr a v ht with ⟨rfl, h1⟩ | ⟨rfl, h1⟩ | ⟨rfl, h1⟩ | ⟨rfl, h1⟩ | ⟨rfl, h1⟩ <;> rw [h1]
      · exact .inr (.inr (.inr (.inr (.inl ⟨v, rfl, rfl⟩))))
      · exact .inr (.inr (.inr (.inr (.inr (.inl ⟨v, rfl, rfl⟩)))))
      · exact .inr (.inr (.inr (.inr (.inr (.inr (.inl ⟨v, rfl, rfl⟩))))))
      · exact .inr (.inr (.inr (.inr (.inr (.inr (.inr (.inl ⟨v, rfl, rfl⟩)))))))
      · exact .inr (.inr (.inr (.inr (.inr (.inr (.inr (.inr ⟨v, rfl, rfl⟩)))))))

end Sys2Proof.Machine
end

