-- ==== Sys2Proof/Laws/Codec.lean ====
section
/-! SUPPORT. Lemmas of the frame codec: the checksum, stuffing and its inverse, and the content of a frame. -/

namespace Sys2Proof

/-! ### The checksum (40_framecodec R110) -/

@[simp] theorem checksum_nil : checksum [] = 0 := rfl

@[simp] theorem checksum_cons (b : Byte) (s : List Byte) : checksum (b :: s) = b + checksum s := by
  simp [checksum, BitVec.ofNat_add]

@[simp] theorem checksum_append (s t : List Byte) : checksum (s ++ t) = checksum s + checksum t := by
  induction s with
  | nil => simp
  | cons b s ih => simp [ih, BitVec.add_assoc]

theorem checksum_toNat (s : List Byte) : (checksum s).toNat = (s.map BitVec.toNat).sum % 256 := by
  simp [checksum]

/-! ### Stuffing (30_encoding R91) -/

@[simp] theorem stuff_nil : stuff [] = [] := rfl

theorem stuff_cons_dle (s : List Byte) : stuff (DLE :: s) = DLE :: NUL :: stuff s := by
  simp only [stuff, ↓reduceIte]

theorem stuff_cons_of_ne (b : Byte) (h : b ≠ DLE) (s : List Byte) : stuff (b :: s) = b :: stuff s := by
  simp only [stuff, if_neg h]

theorem stuff_append (s t : List Byte) : stuff (s ++ t) = stuff s ++ stuff t := by
  induction s with
  | nil => rfl
  | cons b s ih =>
    by_cases h : b = DLE
    · subst h; simp only [List.cons_append, stuff_cons_dle, ih]
    · simp only [List.cons_append, stuff_cons_of_ne b h, ih]

theorem stuff_length (s : List Byte) : (stuff s).length = s.length + s.count DLE := by
  induction s with
  | nil => rfl
  | cons b s ih =>
    by_cases h : b = DLE
    · subst h; simp only [stuff_cons_dle, List.length_cons, ih, List.count_cons_self]; omega
    · simp only [stuff_cons_of_ne b h, List.length_cons, ih, List.count_cons_of_ne h]; omega

theorem unstuff_dle_nul (w : List Byte) : unstuff (DLE :: NUL :: w) = (unstuff w).map (DLE :: ·) := by
  simp only [unstuff, ↓reduceIte]

theorem unstuff_cons_of_ne (b : Byte) (h : b ≠ DLE) (w : List Byte) (hw : w ≠ []) :
    unstuff (b :: w) = (unstuff w).map (b :: ·) := by
  cases w with
  | nil => exact absurd rfl hw
  | cons c w => simp only [unstuff, if_neg h]

/-- Removing the fillers undoes stuffing. -/
theorem unstuff_stuff (c : List Byte) : unstuff (stuff c ++ [DLE, ETX]) = .ok c := by
  induction c with
  | nil => rfl
  | cons b c ih =>
    by_cases h : b = DLE
    · subst h
      rw [stuff_cons_dle, List.cons_append, List.cons_append, unstuff_dle_nul, ih]; rfl
    · rw [stuff_cons_of_ne b h, List.cons_append, unstuff_cons_of_ne b h _ (by simp), ih]; rfl

/-- What unstuffs to `c` is the stuffing of `c` and a trailer. -/
theorem eq_stuff_of_unstuff (w c : List Byte) (h : unstuff w = .ok c) : w = stuff c ++ [DLE, ETX] := by
  induction w using unstuff.induct generalizing c with
  | case1 => cases h
  | case2 b => cases h
  | case3 w ih =>
    rw [unstuff_dle_nul] at h
    cases hr : unstuff w with
    | error e => rw [hr] at h; cases h
    | ok d =>
      rw [hr] at h
      cases h
      rw [stuff_cons_dle, ih d hr]; rfl
  | case4 w hw =>
    rw [List.isEmpty_iff] at hw
    subst hw
    cases h
    rfl
  | case5 w hw => simp only [unstuff, ↓reduceIte, hw, Bool.false_eq_true] at h; cases h
  | case6 b w hnul hetx => simp only [unstuff, ↓reduceIte, if_neg hnul, if_neg hetx] at h; cases h
  | case7 b d w hb ih =>
    rw [unstuff_cons_of_ne b hb _ (by simp)] at h
    cases hr : unstuff (d :: w) with
    | error e => rw [hr] at h; cases h
    | ok e =>
      rw [hr] at h
      cases h
      rw [stuff_cons_of_ne b hb, ih e hr]; rfl

/-! ### Contents and frames (30_encoding R90, R94; 40_framecodec R112, R116) -/

theorem frameCs_eq (d c : Byte) (a : List Byte) : frameCs d c a = 0x12 + (d + (c + checksum a)) := by
  have h : c + (0 : Byte) = c := BitVec.add_zero c
  simp only [frameCs, checksum_append, checksum_cons, checksum_nil, h]
  rw [show (0x12 : Byte) = DLE + STX from rfl]
  ac_rfl

/-- A content of at least three bytes is a destination, a command, arguments and a last byte. -/
theorem content_shape (s : List Byte) (h : 3 ≤ s.length) :
    s = [(contentFrame s).dest, (contentFrame s).cmd] ++ (contentFrame s).args ++ [contentLast s] := by
  match s, h with
  | d :: c :: t, h =>
    obtain ⟨a, k, rfl⟩ : ∃ a k, t = a ++ [k] :=
      ⟨t.dropLast, t.getLast (by rintro rfl; simp at h), (List.dropLast_append_getLast _).symm⟩
    simp [contentFrame, contentLast]

theorem contentFrame_shape (d c k : Byte) (a : List Byte) : contentFrame ([d, c] ++ a ++ [k]) = ⟨d, c, a⟩ := by
  simp [contentFrame]

theorem contentLast_shape (d c k : Byte) (a : List Byte) : contentLast ([d, c] ++ a ++ [k]) = k := by
  simp [contentLast]

theorem contentCs_shape (d c k : Byte) (a : List Byte) : contentCs ([d, c] ++ a ++ [k]) = frameCs d c a := by
  simp [contentCs, frameCs]

/-- A content whose checksum agrees is the content of its frame. -/
theorem content_of_valid (s : List Byte) (h : 3 ≤ s.length) (hk : contentCs s = contentLast s) :
    s = frameContent (contentFrame s).dest (contentFrame s).cmd (contentFrame s).args := by
  have e := content_shape s h
  rw [e, contentCs_shape, contentLast_shape] at hk
  rw [frameContent, hk, ← e]

theorem frameContent_length (d c : Byte) (a : List Byte) : (frameContent d c a).length = 3 + a.length := by
  simp [frameContent]; omega

theorem encodeFrame_eq (d c : Byte) (a : List Byte) :
    encodeFrame d c a = DLE :: STX :: (stuff (frameContent d c a) ++ [DLE, ETX]) := rfl

theorem frameOfContent_frameContent (d c : Byte) (a : List Byte) (h : a.length ≤ 121) :
    frameOfContent (frameContent d c a) = .ok ⟨d, c, a⟩ := by
  have hn := frameContent_length d c a
  rw [frameOfContent, if_neg (by omega), if_neg (by rw [hn]; simp [Config.maxContent]; omega), frameContent,
    contentCs_shape, contentLast_shape, contentFrame_shape, if_pos rfl]

theorem decodeWire_cons (w : List Byte) : decodeWire (DLE :: STX :: w) = (unstuff w).bind frameOfContent := by
  simp only [decodeWire, true_and, ↓reduceIte]

/-- Decoding an encoded frame gives the frame back. -/
theorem decodeWire_encodeFrame (d c : Byte) (a : List Byte) (h : a.length ≤ 121) :
    decodeWire (encodeFrame d c a) = .ok ⟨d, c, a⟩ := by
  rw [encodeFrame_eq, decodeWire_cons, unstuff_stuff]
  exact frameOfContent_frameContent d c a h

/-- What decodes to a frame is that frame's encoding, and its arguments fit. -/
theorem eq_encodeFrame_of_decodeWire (w : List Byte) (f : Frame) (h : decodeWire w = .ok f) :
    w = encodeFrame f.dest f.cmd f.args ∧ f.args.length ≤ 121 := by
  match w, h with
  | b0 :: b1 :: w, h =>
    simp only [decodeWire] at h
    split at h
    · next hb =>
      obtain ⟨rfl, rfl⟩ := hb
      cases hu : unstuff w with
      | error e => rw [hu] at h; cases h
      | ok s =>
        rw [hu] at h
        simp only [Except.bind, frameOfContent] at h
        split at h
        · cases h
        split at h
        · cases h
        next h1 h2 =>
        split at h
        · next hk =>
          cases h
          have e := content_of_valid s (by omega) hk
          have hl := congrArg List.length e
          rw [frameContent_length] at hl
          refine ⟨?_, by simp [Config.maxContent] at h2; omega⟩
          rw [encodeFrame_eq, ← e, eq_stuff_of_unstuff w s hu]
        · cases h
    · cases h

/-! ### Which unit a frame is for (30_encoding R98, 44_dispatcher R182) -/

theorem argsFit_iff (a : List Byte) : argsFit a = true ↔ a.length ≤ 121 := by
  unfold argsFit
  exact decide_eq_true_iff

/-- The unit an address selects has that address and is enabled. -/
theorem unitFor_some (en : Enables) (d : Byte) (u : UnitId) (h : unitFor en d = some u) :
    d = u.addr ∧ en.has u = true := by
  simp only [unitFor] at h
  split_ifs at h <;> cases h <;> simp_all [Enables.has]

/-- An enabled unit is selected by its address: no two units share one. -/
theorem unitFor_addr (en : Enables) (u : UnitId) (h : en.has u = true) : unitFor en u.addr = some u := by
  cases u <;> simp_all [unitFor, UnitId.addr, Enables.has]

theorem unmatched_iff (en : Enables) (d : Byte) : en.unmatched d = true ↔ unitFor en d = none := by
  constructor
  · intro h
    cases hu : unitFor en d with
    | none => rfl
    | some u =>
      obtain ⟨h1, h2⟩ := unitFor_some en d u hu
      simp only [Enables.unmatched, List.all_cons, List.all_nil, Bool.and_true] at h
      subst h1
      cases u <;> simp_all
  · intro h
    simp only [unitFor] at h
    split_ifs at h
    simp_all [Enables.has, Enables.unmatched]
    tauto

/-- The command map gives an instruction that is written as that frame. -/
theorem commandOf_message (u : UnitId) (c : Byte) (a : List Byte) :
    (commandOf u c a).message = .frame ⟨u.addr, c, a⟩ := by
  cases u
  · simp only [commandOf, sqCommand]
    split_ifs <;> simp_all [Instr.message, UnitId.addr]
  · simp only [commandOf, pdaCommand]
    split_ifs <;> simp_all [Instr.message, UnitId.addr]
  · simp only [commandOf, spaCommand]
    split_ifs <;> simp_all [Instr.message, UnitId.addr]

theorem commandOf_wf (u : UnitId) (c : Byte) (a : List Byte) (h : a.length ≤ 121) : (commandOf u c a).wf = true := by
  have h' := (argsFit_iff a).2 h
  cases u
  · simp only [commandOf, sqCommand]
    split_ifs <;> simp_all [Instr.wf, keypadCommands]
  · simp only [commandOf, pdaCommand]
    split_ifs <;> simp_all [Instr.wf, keypadCommands]
  · simp only [commandOf, spaCommand]
    split_ifs <;> simp_all [Instr.wf, spaCommands]

end Sys2Proof
end

