-- ==== Sys2Proof/Laws/State.lean ====
section
/-! SUPPORT. One lemma per field of State for each shared update of Sys2Proof/Machine/Ops.lean, so that no later proof
unfolds a record update. -/

namespace Sys2Proof.Machine

/-! ### `setEvent` -/

@[simp] theorem setEvent_ds (e : Event) (s : State) : (setEvent e s).ds = s.ds := rfl
@[simp] theorem setEvent_ss (e : Event) (s : State) : (setEvent e s).ss = s.ss := rfl
@[simp] theorem setEvent_cbuf (e : Event) (s : State) : (setEvent e s).cbuf = s.cbuf := rfl
@[simp] theorem setEvent_clen (e : Event) (s : State) : (setEvent e s).clen = s.clen := rfl
@[simp] theorem setEvent_rxFifo (e : Event) (s : State) : (setEvent e s).rxFifo = s.rxFifo := rfl
@[simp] theorem setEvent_tRef (e : Event) (s : State) : (setEvent e s).tRef = s.tRef := rfl
@[simp] theorem setEvent_txBuf (e : Event) (s : State) : (setEvent e s).txBuf = s.txBuf := rfl
@[simp] theorem setEvent_txLen (e : Event) (s : State) : (setEvent e s).txLen = s.txLen := rfl
@[simp] theorem setEvent_txPos (e : Event) (s : State) : (setEvent e s).txPos = s.txPos := rfl
@[simp] theorem setEvent_txT0 (e : Event) (s : State) : (setEvent e s).txT0 = s.txT0 := rfl
@[simp] theorem setEvent_fDest (e : Event) (s : State) : (setEvent e s).fDest = s.fDest := rfl
@[simp] theorem setEvent_fCmd (e : Event) (s : State) : (setEvent e s).fCmd = s.fCmd := rfl
@[simp] theorem setEvent_fNargs (e : Event) (s : State) : (setEvent e s).fNargs = s.fNargs := rfl
@[simp] theorem setEvent_fArgs (e : Event) (s : State) : (setEvent e s).fArgs = s.fArgs := rfl
@[simp] theorem setEvent_fUnit (e : Event) (s : State) : (setEvent e s).fUnit = s.fUnit := rfl
@[simp] theorem setEvent_de (e : Event) (s : State) : (setEvent e s).de = s.de := rfl
@[simp] theorem setEvent_reN (e : Event) (s : State) : (setEvent e s).reN = s.reN := rfl
@[simp] theorem setEvent_txd (e : Event) (s : State) : (setEvent e s).txd = s.txd := rfl
@[simp] theorem setEvent_ctrl (e : Event) (s : State) : (setEvent e s).ctrl = s.ctrl := rfl
@[simp] theorem setEvent_events (e : Event) (s : State) : (setEvent e s).events = s.events ||| e.mask := rfl
@[simp] theorem setEvent_lastErr (e : Event) (s : State) : (setEvent e s).lastErr = s.lastErr := rfl
@[simp] theorem setEvent_cnt (e : Event) (s : State) : (setEvent e s).cnt = s.cnt := rfl
@[simp] theorem setEvent_sq (e : Event) (s : State) : (setEvent e s).sq = s.sq := rfl
@[simp] theorem setEvent_pda (e : Event) (s : State) : (setEvent e s).pda = s.pda := rfl
@[simp] theorem setEvent_spa (e : Event) (s : State) : (setEvent e s).spa = s.spa := rfl
@[simp] theorem setEvent_now (e : Event) (s : State) : (setEvent e s).now = s.now := rfl
@[simp] theorem setEvent_schedule (e : Event) (s : State) : (setEvent e s).schedule = s.schedule := rfl
@[simp] theorem setEvent_hostRdata (e : Event) (s : State) : (setEvent e s).hostRdata = s.hostRdata := rfl
@[simp] theorem setEvent_lineOut (e : Event) (s : State) : (setEvent e s).lineOut = s.lineOut := rfl
@[simp] theorem setEvent_par (e : Event) (s : State) : (setEvent e s).par = s.par := rfl

/-! ### `raiseFault` -/

@[simp] theorem raiseFault_ds (c : Cause) (x : BitVec 16) (s : State) : (raiseFault c x s).ds = s.ds := rfl
@[simp] theorem raiseFault_ss (c : Cause) (x : BitVec 16) (s : State) : (raiseFault c x s).ss = s.ss := rfl
@[simp] theorem raiseFault_cbuf (c : Cause) (x : BitVec 16) (s : State) : (raiseFault c x s).cbuf = s.cbuf := rfl
@[simp] theorem raiseFault_clen (c : Cause) (x : BitVec 16) (s : State) : (raiseFault c x s).clen = s.clen := rfl
@[simp] theorem raiseFault_rxFifo (c : Cause) (x : BitVec 16) (s : State) : (raiseFault c x s).rxFifo = s.rxFifo := rfl
@[simp] theorem raiseFault_tRef (c : Cause) (x : BitVec 16) (s : State) : (raiseFault c x s).tRef = s.tRef := rfl
@[simp] theorem raiseFault_txBuf (c : Cause) (x : BitVec 16) (s : State) : (raiseFault c x s).txBuf = s.txBuf := rfl
@[simp] theorem raiseFault_txLen (c : Cause) (x : BitVec 16) (s : State) : (raiseFault c x s).txLen = s.txLen := rfl
@[simp] theorem raiseFault_txPos (c : Cause) (x : BitVec 16) (s : State) : (raiseFault c x s).txPos = s.txPos := rfl
@[simp] theorem raiseFault_txT0 (c : Cause) (x : BitVec 16) (s : State) : (raiseFault c x s).txT0 = s.txT0 := rfl
@[simp] theorem raiseFault_fDest (c : Cause) (x : BitVec 16) (s : State) : (raiseFault c x s).fDest = s.fDest := rfl
@[simp] theorem raiseFault_fCmd (c : Cause) (x : BitVec 16) (s : State) : (raiseFault c x s).fCmd = s.fCmd := rfl
@[simp] theorem raiseFault_fNargs (c : Cause) (x : BitVec 16) (s : State) : (raiseFault c x s).fNargs = s.fNargs := rfl
@[simp] theorem raiseFault_fArgs (c : Cause) (x : BitVec 16) (s : State) : (raiseFault c x s).fArgs = s.fArgs := rfl
@[simp] theorem raiseFault_fUnit (c : Cause) (x : BitVec 16) (s : State) : (raiseFault c x s).fUnit = s.fUnit := rfl
@[simp] theorem raiseFault_de (c : Cause) (x : BitVec 16) (s : State) : (raiseFault c x s).de = s.de := rfl
@[simp] theorem raiseFault_reN (c : Cause) (x : BitVec 16) (s : State) : (raiseFault c x s).reN = s.reN := rfl
@[simp] theorem raiseFault_txd (c : Cause) (x : BitVec 16) (s : State) : (raiseFault c x s).txd = s.txd := rfl
@[simp] theorem raiseFault_ctrl (c : Cause) (x : BitVec 16) (s : State) : (raiseFault c x s).ctrl = s.ctrl := rfl
@[simp] theorem raiseFault_events (c : Cause) (x : BitVec 16) (s : State) : (raiseFault c x s).events = s.events ||| c.event.mask := rfl
@[simp] theorem raiseFault_lastErr (c : Cause) (x : BitVec 16) (s : State) : (raiseFault c x s).lastErr = ⟨c.code, x⟩ := rfl
@[simp] theorem raiseFault_cnt (c : Cause) (x : BitVec 16) (s : State) : (raiseFault c x s).cnt = s.cnt.countFault c := rfl
@[simp] theorem raiseFault_sq (c : Cause) (x : BitVec 16) (s : State) : (raiseFault c x s).sq = s.sq := rfl
@[simp] theorem raiseFault_pda (c : Cause) (x : BitVec 16) (s : State) : (raiseFault c x s).pda = s.pda := rfl
@[simp] theorem raiseFault_spa (c : Cause) (x : BitVec 16) (s : State) : (raiseFault c x s).spa = s.spa := rfl
@[simp] theorem raiseFault_now (c : Cause) (x : BitVec 16) (s : State) : (raiseFault c x s).now = s.now := rfl
@[simp] theorem raiseFault_schedule (c : Cause) (x : BitVec 16) (s : State) : (raiseFault c x s).schedule = s.schedule := rfl
@[simp] theorem raiseFault_hostRdata (c : Cause) (x : BitVec 16) (s : State) : (raiseFault c x s).hostRdata = s.hostRdata := rfl
@[simp] theorem raiseFault_lineOut (c : Cause) (x : BitVec 16) (s : State) : (raiseFault c x s).lineOut = s.lineOut := rfl
@[simp] theorem raiseFault_par (c : Cause) (x : BitVec 16) (s : State) : (raiseFault c x s).par = s.par := rfl

/-! ### `setKeypad` -/

@[simp] theorem setKeypad_ds (k : KeypadId) (x : Keypad) (s : State) : (setKeypad k x s).ds = s.ds := by cases k <;> rfl
@[simp] theorem setKeypad_ss (k : KeypadId) (x : Keypad) (s : State) : (setKeypad k x s).ss = s.ss := by cases k <;> rfl
@[simp] theorem setKeypad_cbuf (k : KeypadId) (x : Keypad) (s : State) : (setKeypad k x s).cbuf = s.cbuf := by cases k <;> rfl
@[simp] theorem setKeypad_clen (k : KeypadId) (x : Keypad) (s : State) : (setKeypad k x s).clen = s.clen := by cases k <;> rfl
@[simp] theorem setKeypad_rxFifo (k : KeypadId) (x : Keypad) (s : State) : (setKeypad k x s).rxFifo = s.rxFifo := by cases k <;> rfl
@[simp] theorem setKeypad_tRef (k : KeypadId) (x : Keypad) (s : State) : (setKeypad k x s).tRef = s.tRef := by cases k <;> rfl
@[simp] theorem setKeypad_txBuf (k : KeypadId) (x : Keypad) (s : State) : (setKeypad k x s).txBuf = s.txBuf := by cases k <;> rfl
@[simp] theorem setKeypad_txLen (k : KeypadId) (x : Keypad) (s : State) : (setKeypad k x s).txLen = s.txLen := by cases k <;> rfl
@[simp] theorem setKeypad_txPos (k : KeypadId) (x : Keypad) (s : State) : (setKeypad k x s).txPos = s.txPos := by cases k <;> rfl
@[simp] theorem setKeypad_txT0 (k : KeypadId) (x : Keypad) (s : State) : (setKeypad k x s).txT0 = s.txT0 := by cases k <;> rfl
@[simp] theorem setKeypad_fDest (k : KeypadId) (x : Keypad) (s : State) : (setKeypad k x s).fDest = s.fDest := by cases k <;> rfl
@[simp] theorem setKeypad_fCmd (k : KeypadId) (x : Keypad) (s : State) : (setKeypad k x s).fCmd = s.fCmd := by cases k <;> rfl
@[simp] theorem setKeypad_fNargs (k : KeypadId) (x : Keypad) (s : State) : (setKeypad k x s).fNargs = s.fNargs := by cases k <;> rfl
@[simp] theorem setKeypad_fArgs (k : KeypadId) (x : Keypad) (s : State) : (setKeypad k x s).fArgs = s.fArgs := by cases k <;> rfl
@[simp] theorem setKeypad_fUnit (k : KeypadId) (x : Keypad) (s : State) : (setKeypad k x s).fUnit = s.fUnit := by cases k <;> rfl
@[simp] theorem setKeypad_de (k : KeypadId) (x : Keypad) (s : State) : (setKeypad k x s).de = s.de := by cases k <;> rfl
@[simp] theorem setKeypad_reN (k : KeypadId) (x : Keypad) (s : State) : (setKeypad k x s).reN = s.reN := by cases k <;> rfl
@[simp] theorem setKeypad_txd (k : KeypadId) (x : Keypad) (s : State) : (setKeypad k x s).txd = s.txd := by cases k <;> rfl
@[simp] theorem setKeypad_ctrl (k : KeypadId) (x : Keypad) (s : State) : (setKeypad k x s).ctrl = s.ctrl := by cases k <;> rfl
@[simp] theorem setKeypad_events (k : KeypadId) (x : Keypad) (s : State) : (setKeypad k x s).events = s.events := by cases k <;> rfl
@[simp] theorem setKeypad_lastErr (k : KeypadId) (x : Keypad) (s : State) : (setKeypad k x s).lastErr = s.lastErr := by cases k <;> rfl
@[simp] theorem setKeypad_cnt (k : KeypadId) (x : Keypad) (s : State) : (setKeypad k x s).cnt = s.cnt := by cases k <;> rfl
@[simp] theorem setKeypad_spa (k : KeypadId) (x : Keypad) (s : State) : (setKeypad k x s).spa = s.spa := by cases k <;> rfl
@[simp] theorem setKeypad_now (k : KeypadId) (x : Keypad) (s : State) : (setKeypad k x s).now = s.now := by cases k <;> rfl
@[simp] theorem setKeypad_schedule (k : KeypadId) (x : Keypad) (s : State) : (setKeypad k x s).schedule = s.schedule := by cases k <;> rfl
@[simp] theorem setKeypad_hostRdata (k : KeypadId) (x : Keypad) (s : State) : (setKeypad k x s).hostRdata = s.hostRdata := by cases k <;> rfl
@[simp] theorem setKeypad_lineOut (k : KeypadId) (x : Keypad) (s : State) : (setKeypad k x s).lineOut = s.lineOut := by cases k <;> rfl
@[simp] theorem setKeypad_par (k : KeypadId) (x : Keypad) (s : State) : (setKeypad k x s).par = s.par := by cases k <;> rfl

@[simp] theorem setKeypad_sq_sq (x : Keypad) (s : State) : (setKeypad .sq x s).sq = x := rfl
@[simp] theorem setKeypad_sq_pda (x : Keypad) (s : State) : (setKeypad .sq x s).pda = s.pda := rfl
@[simp] theorem setKeypad_pda_sq (x : Keypad) (s : State) : (setKeypad .pda x s).sq = s.sq := rfl
@[simp] theorem setKeypad_pda_pda (x : Keypad) (s : State) : (setKeypad .pda x s).pda = x := rfl
@[simp] theorem keypad_setKeypad (k : KeypadId) (x : Keypad) (s : State) : (setKeypad k x s).keypad k = x := by
  cases k <;> rfl

/-! ### `setPending` -/

@[simp] theorem setPending_ds (u : UnitId) (p : Byte) (s : State) : (setPending u p s).ds = s.ds := by cases u <;> rfl
@[simp] theorem setPending_ss (u : UnitId) (p : Byte) (s : State) : (setPending u p s).ss = s.ss := by cases u <;> rfl
@[simp] theorem setPending_cbuf (u : UnitId) (p : Byte) (s : State) : (setPending u p s).cbuf = s.cbuf := by cases u <;> rfl
@[simp] theorem setPending_clen (u : UnitId) (p : Byte) (s : State) : (setPending u p s).clen = s.clen := by cases u <;> rfl
@[simp] theorem setPending_rxFifo (u : UnitId) (p : Byte) (s : State) : (setPending u p s).rxFifo = s.rxFifo := by cases u <;> rfl
@[simp] theorem setPending_tRef (u : UnitId) (p : Byte) (s : State) : (setPending u p s).tRef = s.tRef := by cases u <;> rfl
@[simp] theorem setPending_txBuf (u : UnitId) (p : Byte) (s : State) : (setPending u p s).txBuf = s.txBuf := by cases u <;> rfl
@[simp] theorem setPending_txLen (u : UnitId) (p : Byte) (s : State) : (setPending u p s).txLen = s.txLen := by cases u <;> rfl
@[simp] theorem setPending_txPos (u : UnitId) (p : Byte) (s : State) : (setPending u p s).txPos = s.txPos := by cases u <;> rfl
@[simp] theorem setPending_txT0 (u : UnitId) (p : Byte) (s : State) : (setPending u p s).txT0 = s.txT0 := by cases u <;> rfl
@[simp] theorem setPending_fDest (u : UnitId) (p : Byte) (s : State) : (setPending u p s).fDest = s.fDest := by cases u <;> rfl
@[simp] theorem setPending_fCmd (u : UnitId) (p : Byte) (s : State) : (setPending u p s).fCmd = s.fCmd := by cases u <;> rfl
@[simp] theorem setPending_fNargs (u : UnitId) (p : Byte) (s : State) : (setPending u p s).fNargs = s.fNargs := by cases u <;> rfl
@[simp] theorem setPending_fArgs (u : UnitId) (p : Byte) (s : State) : (setPending u p s).fArgs = s.fArgs := by cases u <;> rfl
@[simp] theorem setPending_fUnit (u : UnitId) (p : Byte) (s : State) : (setPending u p s).fUnit = s.fUnit := by cases u <;> rfl
@[simp] theorem setPending_de (u : UnitId) (p : Byte) (s : State) : (setPending u p s).de = s.de := by cases u <;> rfl
@[simp] theorem setPending_reN (u : UnitId) (p : Byte) (s : State) : (setPending u p s).reN = s.reN := by cases u <;> rfl
@[simp] theorem setPending_txd (u : UnitId) (p : Byte) (s : State) : (setPending u p s).txd = s.txd := by cases u <;> rfl
@[simp] theorem setPending_ctrl (u : UnitId) (p : Byte) (s : State) : (setPending u p s).ctrl = s.ctrl := by cases u <;> rfl
@[simp] theorem setPending_events (u : UnitId) (p : Byte) (s : State) : (setPending u p s).events = s.events := by cases u <;> rfl
@[simp] theorem setPending_lastErr (u : UnitId) (p : Byte) (s : State) : (setPending u p s).lastErr = s.lastErr := by cases u <;> rfl
@[simp] theorem setPending_cnt (u : UnitId) (p : Byte) (s : State) : (setPending u p s).cnt = s.cnt := by cases u <;> rfl
@[simp] theorem setPending_now (u : UnitId) (p : Byte) (s : State) : (setPending u p s).now = s.now := by cases u <;> rfl
@[simp] theorem setPending_schedule (u : UnitId) (p : Byte) (s : State) : (setPending u p s).schedule = s.schedule := by cases u <;> rfl
@[simp] theorem setPending_hostRdata (u : UnitId) (p : Byte) (s : State) : (setPending u p s).hostRdata = s.hostRdata := by cases u <;> rfl
@[simp] theorem setPending_lineOut (u : UnitId) (p : Byte) (s : State) : (setPending u p s).lineOut = s.lineOut := by cases u <;> rfl
@[simp] theorem setPending_par (u : UnitId) (p : Byte) (s : State) : (setPending u p s).par = s.par := by cases u <;> rfl

@[simp] theorem setPending_sq_sq (p : Byte) (s : State) : (setPending .sq p s).sq = { s.sq with pending := p } := rfl
@[simp] theorem setPending_sq_pda (p : Byte) (s : State) : (setPending .sq p s).pda = s.pda := rfl
@[simp] theorem setPending_sq_spa (p : Byte) (s : State) : (setPending .sq p s).spa = s.spa := rfl
@[simp] theorem setPending_pda_sq (p : Byte) (s : State) : (setPending .pda p s).sq = s.sq := rfl
@[simp] theorem setPending_pda_pda (p : Byte) (s : State) : (setPending .pda p s).pda = { s.pda with pending := p } := rfl
@[simp] theorem setPending_pda_spa (p : Byte) (s : State) : (setPending .pda p s).spa = s.spa := rfl
@[simp] theorem setPending_spa_sq (p : Byte) (s : State) : (setPending .spa p s).sq = s.sq := rfl
@[simp] theorem setPending_spa_pda (p : Byte) (s : State) : (setPending .spa p s).pda = s.pda := rfl
@[simp] theorem setPending_spa_spa (p : Byte) (s : State) : (setPending .spa p s).spa = { s.spa with pending := p } := rfl
@[simp] theorem pending_setPending (u : UnitId) (p : Byte) (s : State) : (setPending u p s).pending u = p := by
  cases u <;> rfl
@[simp] theorem seq_setPending (u v : UnitId) (p : Byte) (s : State) : (setPending u p s).seq v = s.seq v := by
  cases u <;> cases v <;> rfl

/-! ### `bumpSeq` -/

@[simp] theorem bumpSeq_ds (u : UnitId) (s : State) : (bumpSeq u s).ds = s.ds := by cases u <;> rfl
@[simp] theorem bumpSeq_ss (u : UnitId) (s : State) : (bumpSeq u s).ss = s.ss := by cases u <;> rfl
@[simp] theorem bumpSeq_cbuf (u : UnitId) (s : State) : (bumpSeq u s).cbuf = s.cbuf := by cases u <;> rfl
@[simp] theorem bumpSeq_clen (u : UnitId) (s : State) : (bumpSeq u s).clen = s.clen := by cases u <;> rfl
@[simp] theorem bumpSeq_rxFifo (u : UnitId) (s : State) : (bumpSeq u s).rxFifo = s.rxFifo := by cases u <;> rfl
@[simp] theorem bumpSeq_tRef (u : UnitId) (s : State) : (bumpSeq u s).tRef = s.tRef := by cases u <;> rfl
@[simp] theorem bumpSeq_txBuf (u : UnitId) (s : State) : (bumpSeq u s).txBuf = s.txBuf := by cases u <;> rfl
@[simp] theorem bumpSeq_txLen (u : UnitId) (s : State) : (bumpSeq u s).txLen = s.txLen := by cases u <;> rfl
@[simp] theorem bumpSeq_txPos (u : UnitId) (s : State) : (bumpSeq u s).txPos = s.txPos := by cases u <;> rfl
@[simp] theorem bumpSeq_txT0 (u : UnitId) (s : State) : (bumpSeq u s).txT0 = s.txT0 := by cases u <;> rfl
@[simp] theorem bumpSeq_fDest (u : UnitId) (s : State) : (bumpSeq u s).fDest = s.fDest := by cases u <;> rfl
@[simp] theorem bumpSeq_fCmd (u : UnitId) (s : State) : (bumpSeq u s).fCmd = s.fCmd := by cases u <;> rfl
@[simp] theorem bumpSeq_fNargs (u : UnitId) (s : State) : (bumpSeq u s).fNargs = s.fNargs := by cases u <;> rfl
@[simp] theorem bumpSeq_fArgs (u : UnitId) (s : State) : (bumpSeq u s).fArgs = s.fArgs := by cases u <;> rfl
@[simp] theorem bumpSeq_fUnit (u : UnitId) (s : State) : (bumpSeq u s).fUnit = s.fUnit := by cases u <;> rfl
@[simp] theorem bumpSeq_de (u : UnitId) (s : State) : (bumpSeq u s).de = s.de := by cases u <;> rfl
@[simp] theorem bumpSeq_reN (u : UnitId) (s : State) : (bumpSeq u s).reN = s.reN := by cases u <;> rfl
@[simp] theorem bumpSeq_txd (u : UnitId) (s : State) : (bumpSeq u s).txd = s.txd := by cases u <;> rfl
@[simp] theorem bumpSeq_ctrl (u : UnitId) (s : State) : (bumpSeq u s).ctrl = s.ctrl := by cases u <;> rfl
@[simp] theorem bumpSeq_events (u : UnitId) (s : State) : (bumpSeq u s).events = s.events := by cases u <;> rfl
@[simp] theorem bumpSeq_lastErr (u : UnitId) (s : State) : (bumpSeq u s).lastErr = s.lastErr := by cases u <;> rfl
@[simp] theorem bumpSeq_cnt (u : UnitId) (s : State) : (bumpSeq u s).cnt = s.cnt := by cases u <;> rfl
@[simp] theorem bumpSeq_now (u : UnitId) (s : State) : (bumpSeq u s).now = s.now := by cases u <;> rfl
@[simp] theorem bumpSeq_schedule (u : UnitId) (s : State) : (bumpSeq u s).schedule = s.schedule := by cases u <;> rfl
@[simp] theorem bumpSeq_hostRdata (u : UnitId) (s : State) : (bumpSeq u s).hostRdata = s.hostRdata := by cases u <;> rfl
@[simp] theorem bumpSeq_lineOut (u : UnitId) (s : State) : (bumpSeq u s).lineOut = s.lineOut := by cases u <;> rfl
@[simp] theorem bumpSeq_par (u : UnitId) (s : State) : (bumpSeq u s).par = s.par := by cases u <;> rfl

@[simp] theorem bumpSeq_sq_sq (s : State) : (bumpSeq .sq s).sq = { s.sq with seq := s.sq.seq + 1 } := rfl
@[simp] theorem bumpSeq_sq_pda (s : State) : (bumpSeq .sq s).pda = s.pda := rfl
@[simp] theorem bumpSeq_sq_spa (s : State) : (bumpSeq .sq s).spa = s.spa := rfl
@[simp] theorem bumpSeq_pda_sq (s : State) : (bumpSeq .pda s).sq = s.sq := rfl
@[simp] theorem bumpSeq_pda_pda (s : State) : (bumpSeq .pda s).pda = { s.pda with seq := s.pda.seq + 1 } := rfl
@[simp] theorem bumpSeq_pda_spa (s : State) : (bumpSeq .pda s).spa = s.spa := rfl
@[simp] theorem bumpSeq_spa_sq (s : State) : (bumpSeq .spa s).sq = s.sq := rfl
@[simp] theorem bumpSeq_spa_pda (s : State) : (bumpSeq .spa s).pda = s.pda := rfl
@[simp] theorem bumpSeq_spa_spa (s : State) : (bumpSeq .spa s).spa = { s.spa with seq := s.spa.seq + 1 } := rfl
@[simp] theorem seq_bumpSeq (u : UnitId) (s : State) : (bumpSeq u s).seq u = s.seq u + 1 := by cases u <;> rfl
@[simp] theorem pending_bumpSeq (u v : UnitId) (s : State) : (bumpSeq u s).pending v = s.pending v := by
  cases u <;> cases v <;> rfl

/-! ### `encodeReply` -/

@[simp] theorem encodeReply_ds (u : UnitId) (p : Byte) (s : State) : (encodeReply u p s).ds = s.ds := rfl
@[simp] theorem encodeReply_ss (u : UnitId) (p : Byte) (s : State) : (encodeReply u p s).ss = s.ss := rfl
@[simp] theorem encodeReply_cbuf (u : UnitId) (p : Byte) (s : State) : (encodeReply u p s).cbuf = s.cbuf := rfl
@[simp] theorem encodeReply_clen (u : UnitId) (p : Byte) (s : State) : (encodeReply u p s).clen = s.clen := rfl
@[simp] theorem encodeReply_rxFifo (u : UnitId) (p : Byte) (s : State) : (encodeReply u p s).rxFifo = s.rxFifo := rfl
@[simp] theorem encodeReply_tRef (u : UnitId) (p : Byte) (s : State) : (encodeReply u p s).tRef = s.tRef := rfl
@[simp] theorem encodeReply_txBuf (u : UnitId) (p : Byte) (s : State) : (encodeReply u p s).txBuf = overwrite s.txBuf (encodeFrame Config.replyDest Config.replyCmd [u.ackByte, p]) := rfl
@[simp] theorem encodeReply_txLen (u : UnitId) (p : Byte) (s : State) : (encodeReply u p s).txLen = (encodeFrame Config.replyDest Config.replyCmd [u.ackByte, p]).length := rfl
@[simp] theorem encodeReply_txPos (u : UnitId) (p : Byte) (s : State) : (encodeReply u p s).txPos = 0 := rfl
@[simp] theorem encodeReply_txT0 (u : UnitId) (p : Byte) (s : State) : (encodeReply u p s).txT0 = s.txT0 := rfl
@[simp] theorem encodeReply_fDest (u : UnitId) (p : Byte) (s : State) : (encodeReply u p s).fDest = s.fDest := rfl
@[simp] theorem encodeReply_fCmd (u : UnitId) (p : Byte) (s : State) : (encodeReply u p s).fCmd = s.fCmd := rfl
@[simp] theorem encodeReply_fNargs (u : UnitId) (p : Byte) (s : State) : (encodeReply u p s).fNargs = s.fNargs := rfl
@[simp] theorem encodeReply_fArgs (u : UnitId) (p : Byte) (s : State) : (encodeReply u p s).fArgs = s.fArgs := rfl
@[simp] theorem encodeReply_fUnit (u : UnitId) (p : Byte) (s : State) : (encodeReply u p s).fUnit = s.fUnit := rfl
@[simp] theorem encodeReply_de (u : UnitId) (p : Byte) (s : State) : (encodeReply u p s).de = s.de := rfl
@[simp] theorem encodeReply_reN (u : UnitId) (p : Byte) (s : State) : (encodeReply u p s).reN = s.reN := rfl
@[simp] theorem encodeReply_txd (u : UnitId) (p : Byte) (s : State) : (encodeReply u p s).txd = s.txd := rfl
@[simp] theorem encodeReply_ctrl (u : UnitId) (p : Byte) (s : State) : (encodeReply u p s).ctrl = s.ctrl := rfl
@[simp] theorem encodeReply_events (u : UnitId) (p : Byte) (s : State) : (encodeReply u p s).events = s.events := rfl
@[simp] theorem encodeReply_lastErr (u : UnitId) (p : Byte) (s : State) : (encodeReply u p s).lastErr = s.lastErr := rfl
@[simp] theorem encodeReply_cnt (u : UnitId) (p : Byte) (s : State) : (encodeReply u p s).cnt = s.cnt := rfl
@[simp] theorem encodeReply_sq (u : UnitId) (p : Byte) (s : State) : (encodeReply u p s).sq = s.sq := rfl
@[simp] theorem encodeReply_pda (u : UnitId) (p : Byte) (s : State) : (encodeReply u p s).pda = s.pda := rfl
@[simp] theorem encodeReply_spa (u : UnitId) (p : Byte) (s : State) : (encodeReply u p s).spa = s.spa := rfl
@[simp] theorem encodeReply_now (u : UnitId) (p : Byte) (s : State) : (encodeReply u p s).now = s.now := rfl
@[simp] theorem encodeReply_schedule (u : UnitId) (p : Byte) (s : State) : (encodeReply u p s).schedule = s.schedule := rfl
@[simp] theorem encodeReply_hostRdata (u : UnitId) (p : Byte) (s : State) : (encodeReply u p s).hostRdata = s.hostRdata := rfl
@[simp] theorem encodeReply_lineOut (u : UnitId) (p : Byte) (s : State) : (encodeReply u p s).lineOut = s.lineOut := rfl
@[simp] theorem encodeReply_par (u : UnitId) (p : Byte) (s : State) : (encodeReply u p s).par = s.par := rfl

/-! ### `countUnknown` -/

@[simp] theorem countUnknown_ds (s : State) : (countUnknown s).ds = s.ds := rfl
@[simp] theorem countUnknown_ss (s : State) : (countUnknown s).ss = s.ss := rfl
@[simp] theorem countUnknown_cbuf (s : State) : (countUnknown s).cbuf = s.cbuf := rfl
@[simp] theorem countUnknown_clen (s : State) : (countUnknown s).clen = s.clen := rfl
@[simp] theorem countUnknown_rxFifo (s : State) : (countUnknown s).rxFifo = s.rxFifo := rfl
@[simp] theorem countUnknown_tRef (s : State) : (countUnknown s).tRef = s.tRef := rfl
@[simp] theorem countUnknown_txBuf (s : State) : (countUnknown s).txBuf = s.txBuf := rfl
@[simp] theorem countUnknown_txLen (s : State) : (countUnknown s).txLen = s.txLen := rfl
@[simp] theorem countUnknown_txPos (s : State) : (countUnknown s).txPos = s.txPos := rfl
@[simp] theorem countUnknown_txT0 (s : State) : (countUnknown s).txT0 = s.txT0 := rfl
@[simp] theorem countUnknown_fDest (s : State) : (countUnknown s).fDest = s.fDest := rfl
@[simp] theorem countUnknown_fCmd (s : State) : (countUnknown s).fCmd = s.fCmd := rfl
@[simp] theorem countUnknown_fNargs (s : State) : (countUnknown s).fNargs = s.fNargs := rfl
@[simp] theorem countUnknown_fArgs (s : State) : (countUnknown s).fArgs = s.fArgs := rfl
@[simp] theorem countUnknown_fUnit (s : State) : (countUnknown s).fUnit = s.fUnit := rfl
@[simp] theorem countUnknown_de (s : State) : (countUnknown s).de = s.de := rfl
@[simp] theorem countUnknown_reN (s : State) : (countUnknown s).reN = s.reN := rfl
@[simp] theorem countUnknown_txd (s : State) : (countUnknown s).txd = s.txd := rfl
@[simp] theorem countUnknown_ctrl (s : State) : (countUnknown s).ctrl = s.ctrl := rfl
@[simp] theorem countUnknown_events (s : State) : (countUnknown s).events = s.events ||| Event.unknownCmd.mask := rfl
@[simp] theorem countUnknown_lastErr (s : State) : (countUnknown s).lastErr = s.lastErr := rfl
@[simp] theorem countUnknown_cnt (s : State) : (countUnknown s).cnt = { s.cnt with unknownCmd := s.cnt.unknownCmd + 1 } := rfl
@[simp] theorem countUnknown_sq (s : State) : (countUnknown s).sq = s.sq := rfl
@[simp] theorem countUnknown_pda (s : State) : (countUnknown s).pda = s.pda := rfl
@[simp] theorem countUnknown_spa (s : State) : (countUnknown s).spa = s.spa := rfl
@[simp] theorem countUnknown_now (s : State) : (countUnknown s).now = s.now := rfl
@[simp] theorem countUnknown_schedule (s : State) : (countUnknown s).schedule = s.schedule := rfl
@[simp] theorem countUnknown_hostRdata (s : State) : (countUnknown s).hostRdata = s.hostRdata := rfl
@[simp] theorem countUnknown_lineOut (s : State) : (countUnknown s).lineOut = s.lineOut := rfl
@[simp] theorem countUnknown_par (s : State) : (countUnknown s).par = s.par := rfl

/-! ### `argFault` -/

@[simp] theorem argFault_ds (s : State) : (argFault s).ds = s.ds := rfl
@[simp] theorem argFault_ss (s : State) : (argFault s).ss = s.ss := rfl
@[simp] theorem argFault_cbuf (s : State) : (argFault s).cbuf = s.cbuf := rfl
@[simp] theorem argFault_clen (s : State) : (argFault s).clen = s.clen := rfl
@[simp] theorem argFault_rxFifo (s : State) : (argFault s).rxFifo = s.rxFifo := rfl
@[simp] theorem argFault_tRef (s : State) : (argFault s).tRef = s.tRef := rfl
@[simp] theorem argFault_txBuf (s : State) : (argFault s).txBuf = s.txBuf := rfl
@[simp] theorem argFault_txLen (s : State) : (argFault s).txLen = s.txLen := rfl
@[simp] theorem argFault_txPos (s : State) : (argFault s).txPos = s.txPos := rfl
@[simp] theorem argFault_txT0 (s : State) : (argFault s).txT0 = s.txT0 := rfl
@[simp] theorem argFault_fDest (s : State) : (argFault s).fDest = s.fDest := rfl
@[simp] theorem argFault_fCmd (s : State) : (argFault s).fCmd = s.fCmd := rfl
@[simp] theorem argFault_fNargs (s : State) : (argFault s).fNargs = s.fNargs := rfl
@[simp] theorem argFault_fArgs (s : State) : (argFault s).fArgs = s.fArgs := rfl
@[simp] theorem argFault_fUnit (s : State) : (argFault s).fUnit = s.fUnit := rfl
@[simp] theorem argFault_de (s : State) : (argFault s).de = s.de := rfl
@[simp] theorem argFault_reN (s : State) : (argFault s).reN = s.reN := rfl
@[simp] theorem argFault_txd (s : State) : (argFault s).txd = s.txd := rfl
@[simp] theorem argFault_ctrl (s : State) : (argFault s).ctrl = s.ctrl := rfl
@[simp] theorem argFault_events (s : State) : (argFault s).events = s.events ||| Event.cmdArg.mask := rfl
@[simp] theorem argFault_lastErr (s : State) : (argFault s).lastErr = ⟨7, s.fDest ++ s.fCmd⟩ := rfl
@[simp] theorem argFault_cnt (s : State) : (argFault s).cnt = s.cnt.countFault .cmdArg := rfl
@[simp] theorem argFault_sq (s : State) : (argFault s).sq = s.sq := rfl
@[simp] theorem argFault_pda (s : State) : (argFault s).pda = s.pda := rfl
@[simp] theorem argFault_spa (s : State) : (argFault s).spa = s.spa := rfl
@[simp] theorem argFault_now (s : State) : (argFault s).now = s.now := rfl
@[simp] theorem argFault_schedule (s : State) : (argFault s).schedule = s.schedule := rfl
@[simp] theorem argFault_hostRdata (s : State) : (argFault s).hostRdata = s.hostRdata := rfl
@[simp] theorem argFault_lineOut (s : State) : (argFault s).lineOut = s.lineOut := rfl
@[simp] theorem argFault_par (s : State) : (argFault s).par = s.par := rfl

/-! ### `hostReturn` -/

@[simp] theorem hostReturn_ds (v : Word) (s : State) : (hostReturn v s).ds = s.ds := rfl
@[simp] theorem hostReturn_ss (v : Word) (s : State) : (hostReturn v s).ss = s.ss := rfl
@[simp] theorem hostReturn_cbuf (v : Word) (s : State) : (hostReturn v s).cbuf = s.cbuf := rfl
@[simp] theorem hostReturn_clen (v : Word) (s : State) : (hostReturn v s).clen = s.clen := rfl
@[simp] theorem hostReturn_rxFifo (v : Word) (s : State) : (hostReturn v s).rxFifo = s.rxFifo := rfl
@[simp] theorem hostReturn_tRef (v : Word) (s : State) : (hostReturn v s).tRef = s.tRef := rfl
@[simp] theorem hostReturn_txBuf (v : Word) (s : State) : (hostReturn v s).txBuf = s.txBuf := rfl
@[simp] theorem hostReturn_txLen (v : Word) (s : State) : (hostReturn v s).txLen = s.txLen := rfl
@[simp] theorem hostReturn_txPos (v : Word) (s : State) : (hostReturn v s).txPos = s.txPos := rfl
@[simp] theorem hostReturn_txT0 (v : Word) (s : State) : (hostReturn v s).txT0 = s.txT0 := rfl
@[simp] theorem hostReturn_fDest (v : Word) (s : State) : (hostReturn v s).fDest = s.fDest := rfl
@[simp] theorem hostReturn_fCmd (v : Word) (s : State) : (hostReturn v s).fCmd = s.fCmd := rfl
@[simp] theorem hostReturn_fNargs (v : Word) (s : State) : (hostReturn v s).fNargs = s.fNargs := rfl
@[simp] theorem hostReturn_fArgs (v : Word) (s : State) : (hostReturn v s).fArgs = s.fArgs := rfl
@[simp] theorem hostReturn_fUnit (v : Word) (s : State) : (hostReturn v s).fUnit = s.fUnit := rfl
@[simp] theorem hostReturn_de (v : Word) (s : State) : (hostReturn v s).de = s.de := rfl
@[simp] theorem hostReturn_reN (v : Word) (s : State) : (hostReturn v s).reN = s.reN := rfl
@[simp] theorem hostReturn_txd (v : Word) (s : State) : (hostReturn v s).txd = s.txd := rfl
@[simp] theorem hostReturn_ctrl (v : Word) (s : State) : (hostReturn v s).ctrl = s.ctrl := rfl
@[simp] theorem hostReturn_events (v : Word) (s : State) : (hostReturn v s).events = s.events := rfl
@[simp] theorem hostReturn_lastErr (v : Word) (s : State) : (hostReturn v s).lastErr = s.lastErr := rfl
@[simp] theorem hostReturn_cnt (v : Word) (s : State) : (hostReturn v s).cnt = s.cnt := rfl
@[simp] theorem hostReturn_sq (v : Word) (s : State) : (hostReturn v s).sq = s.sq := rfl
@[simp] theorem hostReturn_pda (v : Word) (s : State) : (hostReturn v s).pda = s.pda := rfl
@[simp] theorem hostReturn_spa (v : Word) (s : State) : (hostReturn v s).spa = s.spa := rfl
@[simp] theorem hostReturn_now (v : Word) (s : State) : (hostReturn v s).now = s.now := rfl
@[simp] theorem hostReturn_schedule (v : Word) (s : State) : (hostReturn v s).schedule = s.schedule := rfl
@[simp] theorem hostReturn_hostRdata (v : Word) (s : State) : (hostReturn v s).hostRdata = v := rfl
@[simp] theorem hostReturn_lineOut (v : Word) (s : State) : (hostReturn v s).lineOut = s.lineOut := rfl
@[simp] theorem hostReturn_par (v : Word) (s : State) : (hostReturn v s).par = s.par := rfl

/-! ### `finishCommand` -/

@[simp] theorem finishCommand_ds (u : UnitId) (s : State) : (finishCommand u s).ds = .gap := rfl
@[simp] theorem finishCommand_ss (u : UnitId) (s : State) : (finishCommand u s).ss = s.ss := by cases u <;> rfl
@[simp] theorem finishCommand_cbuf (u : UnitId) (s : State) : (finishCommand u s).cbuf = s.cbuf := by cases u <;> rfl
@[simp] theorem finishCommand_clen (u : UnitId) (s : State) : (finishCommand u s).clen = s.clen := by cases u <;> rfl
@[simp] theorem finishCommand_rxFifo (u : UnitId) (s : State) : (finishCommand u s).rxFifo = s.rxFifo := by cases u <;> rfl
@[simp] theorem finishCommand_tRef (u : UnitId) (s : State) : (finishCommand u s).tRef = s.tRef := by cases u <;> rfl
@[simp] theorem finishCommand_txBuf (u : UnitId) (s : State) : (finishCommand u s).txBuf = overwrite s.txBuf (encodeFrame Config.replyDest Config.replyCmd [u.ackByte, s.pending u]) := by cases u <;> rfl
@[simp] theorem finishCommand_txLen (u : UnitId) (s : State) : (finishCommand u s).txLen = (encodeFrame Config.replyDest Config.replyCmd [u.ackByte, s.pending u]).length := by cases u <;> rfl
@[simp] theorem finishCommand_txPos (u : UnitId) (s : State) : (finishCommand u s).txPos = 0 := by cases u <;> rfl
@[simp] theorem finishCommand_txT0 (u : UnitId) (s : State) : (finishCommand u s).txT0 = s.txT0 := by cases u <;> rfl
@[simp] theorem finishCommand_fDest (u : UnitId) (s : State) : (finishCommand u s).fDest = s.fDest := by cases u <;> rfl
@[simp] theorem finishCommand_fCmd (u : UnitId) (s : State) : (finishCommand u s).fCmd = s.fCmd := by cases u <;> rfl
@[simp] theorem finishCommand_fNargs (u : UnitId) (s : State) : (finishCommand u s).fNargs = s.fNargs := by cases u <;> rfl
@[simp] theorem finishCommand_fArgs (u : UnitId) (s : State) : (finishCommand u s).fArgs = s.fArgs := by cases u <;> rfl
@[simp] theorem finishCommand_fUnit (u : UnitId) (s : State) : (finishCommand u s).fUnit = s.fUnit := by cases u <;> rfl
@[simp] theorem finishCommand_de (u : UnitId) (s : State) : (finishCommand u s).de = s.de := by cases u <;> rfl
@[simp] theorem finishCommand_reN (u : UnitId) (s : State) : (finishCommand u s).reN = s.reN := by cases u <;> rfl
@[simp] theorem finishCommand_txd (u : UnitId) (s : State) : (finishCommand u s).txd = s.txd := by cases u <;> rfl
@[simp] theorem finishCommand_ctrl (u : UnitId) (s : State) : (finishCommand u s).ctrl = s.ctrl := by cases u <;> rfl
@[simp] theorem finishCommand_events (u : UnitId) (s : State) : (finishCommand u s).events = s.events ||| (cmdEvent u).mask := by cases u <;> rfl
@[simp] theorem finishCommand_lastErr (u : UnitId) (s : State) : (finishCommand u s).lastErr = s.lastErr := by cases u <;> rfl
@[simp] theorem finishCommand_cnt (u : UnitId) (s : State) : (finishCommand u s).cnt = s.cnt := by cases u <;> rfl
@[simp] theorem finishCommand_now (u : UnitId) (s : State) : (finishCommand u s).now = s.now := by cases u <;> rfl
@[simp] theorem finishCommand_schedule (u : UnitId) (s : State) : (finishCommand u s).schedule = s.schedule := by cases u <;> rfl
@[simp] theorem finishCommand_hostRdata (u : UnitId) (s : State) : (finishCommand u s).hostRdata = s.hostRdata := by cases u <;> rfl
@[simp] theorem finishCommand_lineOut (u : UnitId) (s : State) : (finishCommand u s).lineOut = s.lineOut := by cases u <;> rfl
@[simp] theorem finishCommand_par (u : UnitId) (s : State) : (finishCommand u s).par = s.par := by cases u <;> rfl

@[simp] theorem finishCommand_sq_sq (s : State) : (finishCommand .sq s).sq = { s.sq with pending := Config.neutral, seq := s.sq.seq + 1 } := rfl
@[simp] theorem finishCommand_sq_pda (s : State) : (finishCommand .sq s).pda = s.pda := rfl
@[simp] theorem finishCommand_sq_spa (s : State) : (finishCommand .sq s).spa = s.spa := rfl
@[simp] theorem finishCommand_pda_sq (s : State) : (finishCommand .pda s).sq = s.sq := rfl
@[simp] theorem finishCommand_pda_pda (s : State) : (finishCommand .pda s).pda = { s.pda with pending := Config.neutral, seq := s.pda.seq + 1 } := rfl
@[simp] theorem finishCommand_pda_spa (s : State) : (finishCommand .pda s).spa = s.spa := rfl
@[simp] theorem finishCommand_spa_sq (s : State) : (finishCommand .spa s).sq = s.sq := rfl
@[simp] theorem finishCommand_spa_pda (s : State) : (finishCommand .spa s).pda = s.pda := rfl
@[simp] theorem finishCommand_spa_spa (s : State) : (finishCommand .spa s).spa = { s.spa with pending := Config.neutral, seq := s.spa.seq + 1 } := rfl
@[simp] theorem pending_finishCommand (u : UnitId) (s : State) : (finishCommand u s).pending u = Config.neutral := by
  cases u <;> rfl
@[simp] theorem seq_finishCommand (u : UnitId) (s : State) : (finishCommand u s).seq u = s.seq u + 1 := by
  cases u <;> rfl

theorem seq_finishCommand_of_ne (u v : UnitId) (h : v ≠ u) (s : State) : (finishCommand u s).seq v = s.seq v := by
  cases u <;> cases v <;> first | rfl | exact absurd rfl h

/-- The front of an overwritten buffer is what was written. -/
theorem take_overwrite (a b : List Byte) : (overwrite a b).take b.length = b := by simp [overwrite]

theorem length_overwrite (a b : List Byte) (h : b.length ≤ a.length) : (overwrite a b).length = a.length := by
  simp [overwrite]; omega

theorem length_zeroPad (n : Nat) (b : List Byte) (h : b.length ≤ n) : (zeroPad n b).length = n := by
  simp [zeroPad]; omega

end Sys2Proof.Machine
end

