-- ==== Sys2Proof/Laws/Commands.lean ====
section
/-! SUPPORT. What a command can do, said once: every command is an effect on its own unit and on the fault and event
registers, followed by `finishCommand`. -/

namespace Sys2Proof.Machine

/-- `r` is `s` after what the command of unit `u` does before its reply. -/
structure CommandEffect (u : UnitId) (s r : State) : Prop where
  /-- Only the units, the counters, the events and LAST_ERR change. -/
  frame : r = { s with sq := r.sq, pda := r.pda, spa := r.spa, cnt := r.cnt, events := r.events, lastErr := r.lastErr }
  sq : u ≠ .sq → r.sq = s.sq
  pda : u ≠ .pda → r.pda = s.pda
  spa : u ≠ .spa → r.spa = s.spa
  pending : ∀ v, r.pending v = s.pending v
  seq : ∀ v, r.seq v = s.seq v
  record : (r.cnt = s.cnt ∧ r.lastErr = s.lastErr ∧ r.events = s.events)
    ∨ (r.cnt = s.cnt.countFault .cmdArg ∧ r.lastErr = ⟨7, s.fDest ++ s.fCmd⟩
        ∧ r.events = s.events ||| Event.cmdArg.mask)
    ∨ (r.cnt = { s.cnt with unknownCmd := s.cnt.unknownCmd + 1 } ∧ r.lastErr = s.lastErr
        ∧ r.events = s.events ||| Event.unknownCmd.mask)

theorem CommandEffect.refl (u : UnitId) (s : State) : CommandEffect u s s :=
  ⟨rfl, fun _ => rfl, fun _ => rfl, fun _ => rfl, fun _ => rfl, fun _ => rfl, .inl ⟨rfl, rfl, rfl⟩⟩

theorem effect_argFault (u : UnitId) (s : State) : CommandEffect u s (argFault s) :=
  ⟨rfl, fun _ => rfl, fun _ => rfl, fun _ => rfl, fun v => by cases v <;> rfl, fun v => by cases v <;> rfl,
    .inr (.inl ⟨rfl, rfl, rfl⟩)⟩

theorem effect_countUnknown (u : UnitId) (s : State) : CommandEffect u s (countUnknown s) :=
  ⟨rfl, fun _ => rfl, fun _ => rfl, fun _ => rfl, fun v => by cases v <;> rfl, fun v => by cases v <;> rfl,
    .inr (.inr ⟨rfl, rfl, rfl⟩)⟩

theorem effect_setKeypad (k : KeypadId) (x : Keypad) (s : State) (hp : x.pending = (s.keypad k).pending)
    (hs : x.seq = (s.keypad k).seq) : CommandEffect k.unit s (setKeypad k x s) := by
  refine ⟨?_, ?_, ?_, ?_, ?_, ?_, .inl ?_⟩
  · cases k <;> rfl
  · cases k <;> simp [KeypadId.unit]
  · cases k <;> simp [KeypadId.unit]
  · cases k <;> simp
  · intro v; cases k <;> cases v <;> first | rfl | exact hp
  · intro v; cases k <;> cases v <;> first | rfl | exact hs
  · cases k <;> exact ⟨rfl, rfl, rfl⟩

theorem effect_keypadStatus (k : KeypadId) (args : List Byte) (s : State) :
    CommandEffect k.unit s (keypadStatus k args s) := effect_setKeypad k _ s rfl rfl

theorem effect_keypadClear (k : KeypadId) (s : State) : CommandEffect k.unit s (keypadClear k s) :=
  effect_setKeypad k _ s rfl rfl

theorem effect_keypadWrite (k : KeypadId) (args : List Byte) (s : State) :
    CommandEffect k.unit s (keypadWrite k args s) := by
  cases args with
  | nil => exact effect_argFault _ s
  | cons row text =>
    simp only [keypadWrite]
    split
    · exact effect_setKeypad k _ s rfl rfl
    · exact effect_argFault _ s

theorem effect_keypadInvline (k : KeypadId) (args : List Byte) (s : State) :
    CommandEffect k.unit s (keypadInvline k args s) := by
  cases args with
  | nil => exact effect_argFault _ s
  | cons l rest =>
    simp only [keypadInvline]
    split
    · exact effect_setKeypad k _ s rfl rfl
    · exact effect_argFault _ s

theorem effect_keypadScroll (k : KeypadId) (args : List Byte) (s : State) :
    CommandEffect k.unit s (keypadScroll k args s) := by
  match args with
  | [] => exact effect_argFault _ s
  | [_] => exact effect_argFault _ s
  | [_, _] => exact effect_argFault _ s
  | st :: en :: d :: _ =>
    simp only [keypadScroll]
    split
    · exact CommandEffect.refl _ s
    split
    · exact effect_argFault _ s
    split
    · exact effect_setKeypad k _ s rfl rfl
    · exact effect_setKeypad k _ s rfl rfl

theorem effect_keypadInvrange (k : KeypadId) (args : List Byte) (s : State) :
    CommandEffect k.unit s (keypadInvrange k args s) := by
  match args with
  | [] => exact effect_argFault _ s
  | [_] => exact effect_argFault _ s
  | [_, _] => exact effect_argFault _ s
  | l :: st :: en :: _ =>
    simp only [keypadInvrange]
    split
    · exact effect_argFault _ s
    · exact effect_setKeypad k _ s rfl rfl

theorem effect_setText (t : List Byte) (s : State) : CommandEffect .spa s (setText t s) :=
  ⟨rfl, fun _ => rfl, fun _ => rfl, fun h => absurd rfl h, fun v => by cases v <;> rfl, fun v => by cases v <;> rfl,
    .inl ⟨rfl, rfl, rfl⟩⟩

theorem effect_spaBstatus (args : List Byte) (s : State) : CommandEffect .spa s (spaBstatus args s) := by
  cases args with
  | nil =>
    exact ⟨rfl, fun _ => rfl, fun _ => rfl, fun h => absurd rfl h, fun v => by cases v <;> rfl,
      fun v => by cases v <;> rfl, .inr (.inl ⟨rfl, rfl, rfl⟩)⟩
  | cons m rest =>
    exact ⟨rfl, fun _ => rfl, fun _ => rfl, fun h => absurd rfl h, fun v => by cases v <;> rfl,
      fun v => by cases v <;> rfl, .inl ⟨rfl, rfl, rfl⟩⟩

theorem effect_spaTstatus (args : List Byte) (s : State) : CommandEffect .spa s (spaTstatus args s) := by
  simp only [spaTstatus]
  split
  · exact effect_setText _ s
  · exact ⟨rfl, fun _ => rfl, fun _ => rfl, fun h => absurd rfl h, fun v => by cases v <;> rfl,
      fun v => by cases v <;> rfl, .inr (.inl ⟨rfl, rfl, rfl⟩)⟩

/-- Every command of unit `u` is an effect and the end of the EXEC step. -/
theorem exec_command (i : Instr) (u : UnitId) (s : State) (h : i.unit? = some u) :
    ∃ r, exec i s = .next (finishCommand u r) ∧ CommandEffect u s r := by
  cases i <;> simp only [Instr.unit?, reduceCtorEq, Option.some.injEq] at h <;> subst h
  case sqProbe | sqHandshake | pdaProbe | pdaHandshake | spaProbe | spaChreq => exact ⟨s, rfl, .refl _ s⟩
  case sqUnknown | pdaUnknown | spaUnknown => exact ⟨_, rfl, effect_countUnknown _ s⟩
  case sqStatus args => exact ⟨_, rfl, effect_keypadStatus .sq args s⟩
  case pdaStatus args => exact ⟨_, rfl, effect_keypadStatus .pda args s⟩
  case sqWrite args => exact ⟨_, rfl, effect_keypadWrite .sq args s⟩
  case pdaWrite args => exact ⟨_, rfl, effect_keypadWrite .pda args s⟩
  case sqInvline args => exact ⟨_, rfl, effect_keypadInvline .sq args s⟩
  case pdaInvline args => exact ⟨_, rfl, effect_keypadInvline .pda args s⟩
  case sqClear => exact ⟨_, rfl, effect_keypadClear .sq s⟩
  case pdaClear => exact ⟨_, rfl, effect_keypadClear .pda s⟩
  case sqScroll args => exact ⟨_, rfl, effect_keypadScroll .sq args s⟩
  case pdaScroll args => exact ⟨_, rfl, effect_keypadScroll .pda args s⟩
  case sqInvrange args => exact ⟨_, rfl, effect_keypadInvrange .sq args s⟩
  case pdaInvrange args => exact ⟨_, rfl, effect_keypadInvrange .pda args s⟩
  case spaBstatus args => exact ⟨_, rfl, effect_spaBstatus args s⟩
  case spaTstatus args => exact ⟨_, rfl, effect_spaTstatus args s⟩

/-- The command map gives a command of its unit. -/
theorem commandOf_unit (u : UnitId) (c : Byte) (args : List Byte) : (commandOf u c args).unit? = some u := by
  cases u
  · simp only [commandOf, sqCommand]; split_ifs <;> rfl
  · simp only [commandOf, pdaCommand]; split_ifs <;> rfl
  · simp only [commandOf, spaCommand]; split_ifs <;> rfl

end Sys2Proof.Machine
end

