-- ==== Sys2Proof/Laws/Ops.lean ====
section
/-! SUPPORT. For each shared operation, what it can do, said once: the text of a line, the scrolls, the spa text, the
keypad commands case by case, the windows. -/

namespace Sys2Proof.Machine

/-! ### The text of a line (42_keypad R146) -/

theorem take_takeWhile_spec (m : Nat) (t : List Byte) :
    ∃ n, n ≤ t.length ∧ n ≤ m ∧ (∀ c, c < n → t[c]? ≠ some 0x00) ∧ (n = m ∨ n = t.length ∨ t[n]? = some 0x00)
      ∧ (t.takeWhile (· ≠ 0x00)).take m = t.take n := by
  induction m generalizing t with
  | zero => exact ⟨0, by simp⟩
  | succ m ih =>
    cases t with
    | nil => exact ⟨0, by simp⟩
    | cons b t =>
      by_cases hb : b = 0x00
      · exact ⟨0, by simp, by simp, by simp, by simp [hb], by simp [hb]⟩
      · obtain ⟨n, h1, h2, h3, h4, h5⟩ := ih t
        refine ⟨n + 1, by simp; omega, by omega, ?_, by simpa using h4, ?_⟩
        · intro c hc
          cases c with
          | zero => simpa using hb
          | succ c => simpa using h3 c (by omega)
        · rw [List.takeWhile_cons_of_pos (by simpa using hb), List.take_succ_cons, h5, List.take_succ_cons]

/-- The row a text makes: its bytes before the first 0x00, at most 16, and then spaces. -/
theorem lineRow_spec (t : List Byte) :
    ∃ n, n ≤ t.length ∧ n ≤ 16 ∧ (∀ c, c < n → t[c]? ≠ some 0x00) ∧ (n = 16 ∨ n = t.length ∨ t[n]? = some 0x00)
      ∧ lineRow t = t.take n ++ List.replicate (16 - n) SP := by
  obtain ⟨n, h1, h2, h3, h4, h5⟩ := take_takeWhile_spec 16 t
  refine ⟨n, h1, h2, h3, h4, ?_⟩
  simp only [lineRow, Config.width, h5, List.length_take, Nat.min_eq_left h1]

theorem lineRow_length (t : List Byte) : (lineRow t).length = 16 := by
  simp [lineRow, Config.width]

/-! ### The scrolls (42_keypad R144) -/

theorem scrollDown_length (d : List (List Byte)) (s e : Nat) (h : s < e) (he : e ≤ d.length) :
    (scrollDown d s e).length = d.length := by
  simp [scrollDown]; omega

theorem scrollUp_length (d : List (List Byte)) (s e : Nat) (h : s < e) (he : e ≤ d.length) :
    (scrollUp d s e).length = d.length := by
  simp [scrollUp]; omega

theorem scrollDown_mem (d : List (List Byte)) (s e : Nat) (r : List Byte) (h : r ∈ scrollDown d s e) :
    r = blankRow ∨ r ∈ d := by
  simp only [scrollDown, List.mem_append, List.mem_singleton] at h
  rcases h with ((h | h) | h) | h
  · exact .inr (List.mem_of_mem_take h)
  · exact .inl h
  · exact .inr (List.mem_of_mem_drop (List.mem_of_mem_take h))
  · exact .inr (List.mem_of_mem_drop h)

theorem scrollUp_mem (d : List (List Byte)) (s e : Nat) (r : List Byte) (h : r ∈ scrollUp d s e) :
    r = blankRow ∨ r ∈ d := by
  simp only [scrollUp, List.mem_append, List.mem_singleton] at h
  rcases h with ((h | h) | h) | h
  · exact .inr (List.mem_of_mem_take h)
  · exact .inr (List.mem_of_mem_drop (List.mem_of_mem_take h))
  · exact .inl h
  · exact .inr (List.mem_of_mem_drop h)

/-! ### The keypad commands, case by case -/

theorem keypadWrite_of_lt (k : KeypadId) (row : Byte) (text : List Byte) (s : State)
    (h : (rowMap k row).toNat < k.rows) :
    keypadWrite k (row :: text) s
      = setKeypad k { s.keypad k with disp := (s.keypad k).disp.set (rowMap k row).toNat (lineRow text) } s := by
  simp only [keypadWrite, if_pos h]

theorem keypadWrite_of_ge (k : KeypadId) (row : Byte) (text : List Byte) (s : State)
    (h : k.rows ≤ (rowMap k row).toNat) : keypadWrite k (row :: text) s = argFault s := by
  simp only [keypadWrite, if_neg (Nat.not_lt.2 h)]

theorem keypadInvline_of_lt (k : KeypadId) (l : Byte) (rest : List Byte) (s : State) (h : l.toNat < k.rows) :
    keypadInvline k (l :: rest) s = setKeypad k { s.keypad k with inv := ⟨true, l, 0, 16⟩ } s := by
  simp only [keypadInvline, if_pos h]
  rfl

theorem keypadInvline_of_ge (k : KeypadId) (l : Byte) (rest : List Byte) (s : State) (h : k.rows ≤ l.toNat) :
    keypadInvline k (l :: rest) s = argFault s := by
  simp only [keypadInvline, if_neg (Nat.not_lt.2 h)]

theorem keypadScroll_other (k : KeypadId) (st en d : Byte) (rest : List Byte) (s : State) (h1 : d ≠ 0x01)
    (h2 : d ≠ 0xFF) : keypadScroll k (st :: en :: d :: rest) s = s := by
  simp only [keypadScroll, if_pos (And.intro h1 h2)]

theorem keypadScroll_bad (k : KeypadId) (st en d : Byte) (rest : List Byte) (s : State) (hd : d = 0x01 ∨ d = 0xFF)
    (h : ¬ (st.toNat < en.toNat ∧ en.toNat ≤ k.rows)) :
    keypadScroll k (st :: en :: d :: rest) s = argFault s := by
  have h' : ¬ (d ≠ 0x01 ∧ d ≠ 0xFF) := by tauto
  simp only [keypadScroll, if_neg h', if_pos h]

theorem keypadScroll_down (k : KeypadId) (st en : Byte) (rest : List Byte) (s : State) (h : st.toNat < en.toNat)
    (he : en.toNat ≤ k.rows) :
    keypadScroll k (st :: en :: 0x01 :: rest) s
      = setKeypad k { s.keypad k with disp := scrollDown (s.keypad k).disp st.toNat en.toNat } s := by
  have h' : ¬ ¬ (st.toNat < en.toNat ∧ en.toNat ≤ k.rows) := not_not.2 ⟨h, he⟩
  simp only [keypadScroll, if_neg h']
  rfl

theorem keypadScroll_up (k : KeypadId) (st en : Byte) (rest : List Byte) (s : State) (h : st.toNat < en.toNat)
    (he : en.toNat ≤ k.rows) :
    keypadScroll k (st :: en :: 0xFF :: rest) s
      = setKeypad k { s.keypad k with disp := scrollUp (s.keypad k).disp st.toNat en.toNat } s := by
  have h' : ¬ ¬ (st.toNat < en.toNat ∧ en.toNat ≤ k.rows) := not_not.2 ⟨h, he⟩
  simp only [keypadScroll, if_neg h']
  rfl

theorem keypadInvrange_ok (k : KeypadId) (l st en : Byte) (rest : List Byte) (s : State) (hl : l.toNat < k.rows)
    (h : st.toNat < en.toNat) (he : en.toNat ≤ 16) :
    keypadInvrange k (l :: st :: en :: rest) s = setKeypad k { s.keypad k with inv := ⟨true, l, st, en⟩ } s := by
  have h' : ¬ (k.rows ≤ l.toNat ∨ ¬ (st.toNat < en.toNat ∧ en.toNat ≤ Config.width)) := by
    simp only [Config.width]; omega
  simp only [keypadInvrange, if_neg h']

theorem keypadInvrange_bad (k : KeypadId) (l st en : Byte) (rest : List Byte) (s : State)
    (h : k.rows ≤ l.toNat ∨ ¬ (st.toNat < en.toNat ∧ en.toNat ≤ 16)) :
    keypadInvrange k (l :: st :: en :: rest) s = argFault s := by
  have h' : k.rows ≤ l.toNat ∨ ¬ (st.toNat < en.toNat ∧ en.toNat ≤ Config.width) := h
  simp only [keypadInvrange, if_pos h']

/-! ### The spa text (43_spa R168) -/

/-- A pattern matches where it stands inside the arguments. -/
theorem matchAt_iff (args : List Byte) (off : Nat) (pat : List Byte) :
    matchAt args off pat = true ↔ ∃ before after, args = before ++ pat ++ after ∧ before.length = off := by
  simp only [matchAt, Bool.and_eq_true, decide_eq_true_eq, beq_iff_eq]
  constructor
  · rintro ⟨h1, h2⟩
    refine ⟨args.take off, (args.drop off).drop pat.length, ?_, by simp; omega⟩
    conv_lhs => rw [← List.take_append_drop off args, ← List.take_append_drop pat.length (args.drop off), h2]
    simp
  · rintro ⟨b, a, rfl, rfl⟩
    simp [List.append_assoc]

/-- Every text is 3 or 7 bytes long (10_state R56). -/
theorem statusText_length (p : Params) (args t : List Byte) (h : statusText p args = some t) :
    t.length = 3 ∨ t.length = 7 := by
  simp only [statusText] at h
  split_ifs at h <;> cases h <;> simp [pwrOffText, offH2o, setSuffix, airSuffix, h2oSuffix] <;> omega

theorem zeroPad_drop (n : Nat) (b : List Byte) (x : Byte) (h : x ∈ (zeroPad n b).drop b.length) : x = 0 := by
  simp only [zeroPad, List.drop_left] at h
  exact List.eq_of_mem_replicate h

/-! ### The key map (45_host R202) -/

theorem keyIndex_eq (v : Word) : keyIndex v = v.toNat % 16 := by
  simp [keyIndex, BitVec.extractLsb']

end Sys2Proof.Machine
end

