-- ==== Sys2Proof/Laws/PerInstr.lean ====
section
/-! SUPPORT. The per-instruction family `KeyMatchesRow`: the key of what an instruction is written as (30_encoding R104)
agrees with its row of spec/opcode_table.json, whose mask and match are written out here from the table. -/

namespace Sys2Proof.Laws.KeyMatchesRow

/-- The key of a message, in the table's 16 bits: `dest << 8 | cmd`, or `w << 12 | a` (R104). -/
def keyOf : Message → BitVec 16
  | .frame f => f.dest ++ f.cmd
  | .reply f => f.dest ++ f.cmd
  | .access acc => acc.key.setWidth 16

/-- The mask and the match of an instruction's row. -/
def rowOf : Instr → BitVec 16 × BitVec 16
  | .sqProbe _ => (0xFFFF, 0x4000)
  | .sqStatus _ => (0xFFFF, 0x4002)
  | .sqWrite _ => (0xFFFF, 0x4004)
  | .sqHandshake _ => (0xFFFF, 0x4005)
  | .sqInvline _ => (0xFFFF, 0x4008)
  | .sqClear _ => (0xFFFF, 0x4009)
  | .sqScroll _ => (0xFFFF, 0x400F)
  | .sqInvrange _ => (0xFFFF, 0x4010)
  | .sqUnknown _ _ => (0xFF00, 0x4000)
  | .pdaProbe _ => (0xFFFF, 0x6000)
  | .pdaStatus _ => (0xFFFF, 0x6002)
  | .pdaWrite _ => (0xFFFF, 0x6004)
  | .pdaHandshake _ => (0xFFFF, 0x6005)
  | .pdaInvline _ => (0xFFFF, 0x6008)
  | .pdaClear _ => (0xFFFF, 0x6009)
  | .pdaScroll _ => (0xFFFF, 0x600F)
  | .pdaInvrange _ => (0xFFFF, 0x6010)
  | .pdaUnknown _ _ => (0xFF00, 0x6000)
  | .spaProbe _ => (0xFFFF, 0x2000)
  | .spaBstatus _ => (0xFFFF, 0x2002)
  | .spaTstatus _ => (0xFFFF, 0x2003)
  | .spaChreq _ => (0xFFFF, 0x2009)
  | .spaUnknown _ _ => (0xFF00, 0x2000)
  | .discard _ _ _ => (0x0000, 0x0000)
  | .ack _ _ => (0xFFFF, 0x0001)
  | .hCtrlWr _ => (0x1FFF, 0x1000)
  | .hCtrlRd => (0x1FFF, 0x0000)
  | .hStatusRd => (0x1FFF, 0x0004)
  | .hEventsRd => (0x1FFF, 0x0008)
  | .hEventsW1c _ => (0x1FFF, 0x1008)
  | .hLastErrRd => (0x1FFF, 0x000C)
  | .hCntFrameOkRd => (0x1FFF, 0x0010)
  | .hCntAddressedRd => (0x1FFF, 0x0014)
  | .hCntErrChecksumRd => (0x1FFF, 0x0018)
  | .hCntErrEscapeRd => (0x1FFF, 0x001C)
  | .hCntErrOversizeRd => (0x1FFF, 0x0020)
  | .hCntErrRuntRd => (0x1FFF, 0x0024)
  | .hCntErrLineRd => (0x1FFF, 0x0028)
  | .hCntErrOverrunRd => (0x1FFF, 0x002C)
  | .hCntReplySentRd => (0x1FFF, 0x0030)
  | .hCntUnknownCmdRd => (0x1FFF, 0x0034)
  | .hCntErrCmdArgRd => (0x1FFF, 0x0038)
  | .hCntErrHostRd => (0x1FFF, 0x003C)
  | .hKeyWrSq _ => (0x1FFF, 0x1100)
  | .hPendingRdSq => (0x1FFF, 0x0100)
  | .hInvRdSq => (0x1FFF, 0x0104)
  | .hKstatLenRdSq => (0x1FFF, 0x0108)
  | .hDimsRdSq => (0x1FFF, 0x010C)
  | .hSeqRdSq => (0x1FFF, 0x0110)
  | .hKstatRdSq _ => (0x1F83, 0x0180)
  | .hDispRdSq _ => (0x1F03, 0x0200)
  | .hKeyWrPda _ => (0x1FFF, 0x1400)
  | .hPendingRdPda => (0x1FFF, 0x0400)
  | .hInvRdPda => (0x1FFF, 0x0404)
  | .hKstatLenRdPda => (0x1FFF, 0x0408)
  | .hDimsRdPda => (0x1FFF, 0x040C)
  | .hSeqRdPda => (0x1FFF, 0x0410)
  | .hKstatRdPda _ => (0x1F83, 0x0480)
  | .hDispRdPda _ => (0x1F03, 0x0500)
  | .hKeyWrSpa _ => (0x1FFF, 0x1700)
  | .hPendingRdSpa => (0x1FFF, 0x0700)
  | .hDimsRdSpa => (0x1FFF, 0x070C)
  | .hSeqRdSpa => (0x1FFF, 0x0710)
  | .hSpaStateRd => (0x1FFF, 0x0704)
  | .hSpaTextLenRd => (0x1FFF, 0x0708)
  | .hSpaTextRd _ => (0x1FFB, 0x0720)
  | .hMisaligned _ => (0x0000, 0x0000)
  | .hUnmapped _ => (0x0000, 0x0000)

/-- The fixed bits of the instruction's key are those of its row. -/
def Statement (i : Instr) : Prop := keyOf i.message &&& (rowOf i).1 = (rowOf i).2

theorem sqProbe (args : List Byte) : Statement (.sqProbe args) :=
  (by decide : (0x40#8 ++ 0x00#8) &&& 0xFFFF#16 = 0x4000#16)

theorem sqStatus (args : List Byte) : Statement (.sqStatus args) :=
  (by decide : (0x40#8 ++ 0x02#8) &&& 0xFFFF#16 = 0x4002#16)

theorem sqWrite (args : List Byte) : Statement (.sqWrite args) :=
  (by decide : (0x40#8 ++ 0x04#8) &&& 0xFFFF#16 = 0x4004#16)

theorem sqHandshake (args : List Byte) : Statement (.sqHandshake args) :=
  (by decide : (0x40#8 ++ 0x05#8) &&& 0xFFFF#16 = 0x4005#16)

theorem sqInvline (args : List Byte) : Statement (.sqInvline args) :=
  (by decide : (0x40#8 ++ 0x08#8) &&& 0xFFFF#16 = 0x4008#16)

theorem sqClear (args : List Byte) : Statement (.sqClear args) :=
  (by decide : (0x40#8 ++ 0x09#8) &&& 0xFFFF#16 = 0x4009#16)

theorem sqScroll (args : List Byte) : Statement (.sqScroll args) :=
  (by decide : (0x40#8 ++ 0x0F#8) &&& 0xFFFF#16 = 0x400F#16)

theorem sqInvrange (args : List Byte) : Statement (.sqInvrange args) :=
  (by decide : (0x40#8 ++ 0x10#8) &&& 0xFFFF#16 = 0x4010#16)

theorem sqUnknown (cmd : Byte) (args : List Byte) : Statement (.sqUnknown cmd args) :=
  (by decide : ∀ x : Byte, (0x40#8 ++ x) &&& 0xFF00#16 = 0x4000#16) cmd

theorem pdaProbe (args : List Byte) : Statement (.pdaProbe args) :=
  (by decide : (0x60#8 ++ 0x00#8) &&& 0xFFFF#16 = 0x6000#16)

theorem pdaStatus (args : List Byte) : Statement (.pdaStatus args) :=
  (by decide : (0x60#8 ++ 0x02#8) &&& 0xFFFF#16 = 0x6002#16)

theorem pdaWrite (args : List Byte) : Statement (.pdaWrite args) :=
  (by decide : (0x60#8 ++ 0x04#8) &&& 0xFFFF#16 = 0x6004#16)

theorem pdaHandshake (args : List Byte) : Statement (.pdaHandshake args) :=
  (by decide : (0x60#8 ++ 0x05#8) &&& 0xFFFF#16 = 0x6005#16)

theorem pdaInvline (args : List Byte) : Statement (.pdaInvline args) :=
  (by decide : (0x60#8 ++ 0x08#8) &&& 0xFFFF#16 = 0x6008#16)

theorem pdaClear (args : List Byte) : Statement (.pdaClear args) :=
  (by decide : (0x60#8 ++ 0x09#8) &&& 0xFFFF#16 = 0x6009#16)

theorem pdaScroll (args : List Byte) : Statement (.pdaScroll args) :=
  (by decide : (0x60#8 ++ 0x0F#8) &&& 0xFFFF#16 = 0x600F#16)

theorem pdaInvrange (args : List Byte) : Statement (.pdaInvrange args) :=
  (by decide : (0x60#8 ++ 0x10#8) &&& 0xFFFF#16 = 0x6010#16)

theorem pdaUnknown (cmd : Byte) (args : List Byte) : Statement (.pdaUnknown cmd args) :=
  (by decide : ∀ x : Byte, (0x60#8 ++ x) &&& 0xFF00#16 = 0x6000#16) cmd

theorem spaProbe (args : List Byte) : Statement (.spaProbe args) :=
  (by decide : (0x20#8 ++ 0x00#8) &&& 0xFFFF#16 = 0x2000#16)

theorem spaBstatus (args : List Byte) : Statement (.spaBstatus args) :=
  (by decide : (0x20#8 ++ 0x02#8) &&& 0xFFFF#16 = 0x2002#16)

theorem spaTstatus (args : List Byte) : Statement (.spaTstatus args) :=
  (by decide : (0x20#8 ++ 0x03#8) &&& 0xFFFF#16 = 0x2003#16)

theorem spaChreq (args : List Byte) : Statement (.spaChreq args) :=
  (by decide : (0x20#8 ++ 0x09#8) &&& 0xFFFF#16 = 0x2009#16)

theorem spaUnknown (cmd : Byte) (args : List Byte) : Statement (.spaUnknown cmd args) :=
  (by decide : ∀ x : Byte, (0x20#8 ++ x) &&& 0xFF00#16 = 0x2000#16) cmd

theorem discard (dest : Byte) (cmd : Byte) (args : List Byte) : Statement (.discard dest cmd args) := BitVec.and_zero

theorem ack (u : UnitId) (p : Byte) : Statement (.ack u p) :=
  (by decide : (0x00#8 ++ 0x01#8) &&& 0xFFFF#16 = 0x0001#16)

theorem hCtrlWr (v : Word) : Statement (.hCtrlWr v) :=
  (by decide : BitVec.setWidth 16 (BitVec.ofBool true ++ 0x000#12) &&& 0x1FFF#16 = 0x1000#16)

theorem hCtrlRd : Statement .hCtrlRd :=
  (by decide : BitVec.setWidth 16 (BitVec.ofBool false ++ 0x000#12) &&& 0x1FFF#16 = 0x0000#16)

theorem hStatusRd : Statement .hStatusRd :=
  (by decide : BitVec.setWidth 16 (BitVec.ofBool false ++ 0x004#12) &&& 0x1FFF#16 = 0x0004#16)

theorem hEventsRd : Statement .hEventsRd :=
  (by decide : BitVec.setWidth 16 (BitVec.ofBool false ++ 0x008#12) &&& 0x1FFF#16 = 0x0008#16)

theorem hEventsW1c (v : Word) : Statement (.hEventsW1c v) :=
  (by decide : BitVec.setWidth 16 (BitVec.ofBool true ++ 0x008#12) &&& 0x1FFF#16 = 0x1008#16)

theorem hLastErrRd : Statement .hLastErrRd :=
  (by decide : BitVec.setWidth 16 (BitVec.ofBool false ++ 0x00C#12) &&& 0x1FFF#16 = 0x000C#16)

theorem hCntFrameOkRd : Statement .hCntFrameOkRd :=
  (by decide : BitVec.setWidth 16 (BitVec.ofBool false ++ 0x010#12) &&& 0x1FFF#16 = 0x0010#16)

theorem hCntAddressedRd : Statement .hCntAddressedRd :=
  (by decide : BitVec.setWidth 16 (BitVec.ofBool false ++ 0x014#12) &&& 0x1FFF#16 = 0x0014#16)

theorem hCntErrChecksumRd : Statement .hCntErrChecksumRd :=
  (by decide : BitVec.setWidth 16 (BitVec.ofBool false ++ 0x018#12) &&& 0x1FFF#16 = 0x0018#16)

theorem hCntErrEscapeRd : Statement .hCntErrEscapeRd :=
  (by decide : BitVec.setWidth 16 (BitVec.ofBool false ++ 0x01C#12) &&& 0x1FFF#16 = 0x001C#16)

theorem hCntErrOversizeRd : Statement .hCntErrOversizeRd :=
  (by decide : BitVec.setWidth 16 (BitVec.ofBool false ++ 0x020#12) &&& 0x1FFF#16 = 0x0020#16)

theorem hCntErrRuntRd : Statement .hCntErrRuntRd :=
  (by decide : BitVec.setWidth 16 (BitVec.ofBool false ++ 0x024#12) &&& 0x1FFF#16 = 0x0024#16)

theorem hCntErrLineRd : Statement .hCntErrLineRd :=
  (by decide : BitVec.setWidth 16 (BitVec.ofBool false ++ 0x028#12) &&& 0x1FFF#16 = 0x0028#16)

theorem hCntErrOverrunRd : Statement .hCntErrOverrunRd :=
  (by decide : BitVec.setWidth 16 (BitVec.ofBool false ++ 0x02C#12) &&& 0x1FFF#16 = 0x002C#16)

theorem hCntReplySentRd : Statement .hCntReplySentRd :=
  (by decide : BitVec.setWidth 16 (BitVec.ofBool false ++ 0x030#12) &&& 0x1FFF#16 = 0x0030#16)

theorem hCntUnknownCmdRd : Statement .hCntUnknownCmdRd :=
  (by decide : BitVec.setWidth 16 (BitVec.ofBool false ++ 0x034#12) &&& 0x1FFF#16 = 0x0034#16)

theorem hCntErrCmdArgRd : Statement .hCntErrCmdArgRd :=
  (by decide : BitVec.setWidth 16 (BitVec.ofBool false ++ 0x038#12) &&& 0x1FFF#16 = 0x0038#16)

theorem hCntErrHostRd : Statement .hCntErrHostRd :=
  (by decide : BitVec.setWidth 16 (BitVec.ofBool false ++ 0x03C#12) &&& 0x1FFF#16 = 0x003C#16)

theorem hKeyWrSq (v : Word) : Statement (.hKeyWrSq v) :=
  (by decide : BitVec.setWidth 16 (BitVec.ofBool true ++ 0x100#12) &&& 0x1FFF#16 = 0x1100#16)

theorem hPendingRdSq : Statement .hPendingRdSq :=
  (by decide : BitVec.setWidth 16 (BitVec.ofBool false ++ 0x100#12) &&& 0x1FFF#16 = 0x0100#16)

theorem hInvRdSq : Statement .hInvRdSq :=
  (by decide : BitVec.setWidth 16 (BitVec.ofBool false ++ 0x104#12) &&& 0x1FFF#16 = 0x0104#16)

theorem hKstatLenRdSq : Statement .hKstatLenRdSq :=
  (by decide : BitVec.setWidth 16 (BitVec.ofBool false ++ 0x108#12) &&& 0x1FFF#16 = 0x0108#16)

theorem hDimsRdSq : Statement .hDimsRdSq :=
  (by decide : BitVec.setWidth 16 (BitVec.ofBool false ++ 0x10C#12) &&& 0x1FFF#16 = 0x010C#16)

theorem hSeqRdSq : Statement .hSeqRdSq :=
  (by decide : BitVec.setWidth 16 (BitVec.ofBool false ++ 0x110#12) &&& 0x1FFF#16 = 0x0110#16)

theorem hKstatRdSq (j : BitVec 5) : Statement (.hKstatRdSq j) := by
  revert j; unfold Statement; decide

theorem hDispRdSq (j : BitVec 6) : Statement (.hDispRdSq j) := by
  revert j; unfold Statement; decide

theorem hKeyWrPda (v : Word) : Statement (.hKeyWrPda v) :=
  (by decide : BitVec.setWidth 16 (BitVec.ofBool true ++ 0x400#12) &&& 0x1FFF#16 = 0x1400#16)

theorem hPendingRdPda : Statement .hPendingRdPda :=
  (by decide : BitVec.setWidth 16 (BitVec.ofBool false ++ 0x400#12) &&& 0x1FFF#16 = 0x0400#16)

theorem hInvRdPda : Statement .hInvRdPda :=
  (by decide : BitVec.setWidth 16 (BitVec.ofBool false ++ 0x404#12) &&& 0x1FFF#16 = 0x0404#16)

theorem hKstatLenRdPda : Statement .hKstatLenRdPda :=
  (by decide : BitVec.setWidth 16 (BitVec.ofBool false ++ 0x408#12) &&& 0x1FFF#16 = 0x0408#16)

theorem hDimsRdPda : Statement .hDimsRdPda :=
  (by decide : BitVec.setWidth 16 (BitVec.ofBool false ++ 0x40C#12) &&& 0x1FFF#16 = 0x040C#16)

theorem hSeqRdPda : Statement .hSeqRdPda :=
  (by decide : BitVec.setWidth 16 (BitVec.ofBool false ++ 0x410#12) &&& 0x1FFF#16 = 0x0410#16)

theorem hKstatRdPda (j : BitVec 5) : Statement (.hKstatRdPda j) := by
  revert j; unfold Statement; decide

theorem hDispRdPda (j : BitVec 6) : Statement (.hDispRdPda j) := by
  revert j; unfold Statement; decide

theorem hKeyWrSpa (v : Word) : Statement (.hKeyWrSpa v) :=
  (by decide : BitVec.setWidth 16 (BitVec.ofBool true ++ 0x700#12) &&& 0x1FFF#16 = 0x1700#16)

theorem hPendingRdSpa : Statement .hPendingRdSpa :=
  (by decide : BitVec.setWidth 16 (BitVec.ofBool false ++ 0x700#12) &&& 0x1FFF#16 = 0x0700#16)

theorem hDimsRdSpa : Statement .hDimsRdSpa :=
  (by decide : BitVec.setWidth 16 (BitVec.ofBool false ++ 0x70C#12) &&& 0x1FFF#16 = 0x070C#16)

theorem hSeqRdSpa : Statement .hSeqRdSpa :=
  (by decide : BitVec.setWidth 16 (BitVec.ofBool false ++ 0x710#12) &&& 0x1FFF#16 = 0x0710#16)

theorem hSpaStateRd : Statement .hSpaStateRd :=
  (by decide : BitVec.setWidth 16 (BitVec.ofBool false ++ 0x704#12) &&& 0x1FFF#16 = 0x0704#16)

theorem hSpaTextLenRd : Statement .hSpaTextLenRd :=
  (by decide : BitVec.setWidth 16 (BitVec.ofBool false ++ 0x708#12) &&& 0x1FFF#16 = 0x0708#16)

theorem hSpaTextRd (j : BitVec 1) : Statement (.hSpaTextRd j) := by
  revert j; unfold Statement; decide

theorem hMisaligned (acc : HostAccess) : Statement (.hMisaligned acc) := BitVec.and_zero

theorem hUnmapped (acc : HostAccess) : Statement (.hUnmapped acc) := BitVec.and_zero

end Sys2Proof.Laws.KeyMatchesRow
end

