-- ==== Sys2Proof/Laws/Step.lean ====
section
/-! SUPPORT. What a step, a run, an engine step, a host access and a command can do, each said once, so that a later
proof takes these cases and unfolds nothing. -/

namespace Sys2Proof.Machine

/-! ### Steps and runs -/

@[simp] theorem popped_schedule (s : State) : s.popped.schedule = s.schedule.tail := rfl

/-- A step takes the next move. -/
theorem step_eq (s : State) : step s = runMove s.nextMove s.popped := by
  unfold step State.nextMove
  cases h : s.schedule with
  | nil =>
    have : s.popped = s := by cases s; simp only at h; subst h; rfl
    rw [this]
  | cons m rest => simp only [State.popped, h, List.tail_cons]

theorem step_cons (s : State) (m : Move) (rest : List Move) (h : s.schedule = m :: rest) :
    step s = runMove m { s with schedule := rest } := by
  simp only [step, h]

theorem nextMove_cons (s : State) (m : Move) (rest : List Move) (h : s.schedule = m :: rest) : s.nextMove = m := by
  simp only [State.nextMove, h]

@[simp] theorem run_zero (s : State) : Host.Core.run core 0 s = .next s := rfl

theorem run_succ (n : Nat) (s t : State) (h : step s = .next t) :
    Host.Core.run core (n + 1) s = Host.Core.run core n t := by
  have h' : core.step s = .next t := h
  simp only [Host.Core.run, h']

theorem run_add (m n : Nat) (s t : State) (h : Host.Core.run core m s = .next t) :
    Host.Core.run core (m + n) s = Host.Core.run core n t := by
  induction m generalizing s with
  | zero => cases h; rw [Nat.zero_add]
  | succ m ih =>
    have hs : ∃ r, step s = .next r := by
      cases hr : step s with
      | next r => exact ⟨r, rfl⟩
      | fault r => cases r
      | refused r =>
        have : Host.Core.run core (m + 1) s = .refused r := by
          have h' : core.step s = .refused r := hr
          simp only [Host.Core.run, h']
        rw [this] at h; cases h
    obtain ⟨r, hr⟩ := hs
    rw [run_succ m s r hr] at h
    rw [Nat.add_right_comm, run_succ (m + n) s r hr, ih r h]

/-- No arm of `exec` faults or refuses. -/
theorem exec_next (i : Instr) (s : State) : ∃ t, exec i s = .next t := by
  cases i <;> exact ⟨_, rfl⟩

/-! ### What a move can do -/

/-- What `consume` can do with a byte: stay in the hunt, open or restart a frame, mark a `DLE`, store a byte, overflow,
or end a frame. -/
theorem consume_cases (b : Byte) (s : State) :
    (∃ m, consume b s = ({ s with ss := m }, false)
        ∧ ((s.ss = .acc ∧ m = .accDle) ∨ ((s.ss = .hunt ∨ s.ss = .huntDle) ∧ (m = .hunt ∨ m = .huntDle))))
    ∨ consume b s = ({ s with ss := .acc, clen := 0 }, false)
    ∨ (s.clen ≠ Config.maxContent ∧ ∃ x,
        consume b s = ({ s with cbuf := s.cbuf.set s.clen x, clen := s.clen + 1, ss := .acc }, false))
    ∨ (∃ c x m, (m = .hunt ∨ m = .huntDle ∨ m = .acc)
        ∧ consume b s = ({ raiseFault c x s with ss := m, clen := 0 }, false))
    ∨ (s.ss = .accDle ∧ b = ETX ∧ 3 ≤ s.content.length ∧ contentCs s.content = contentLast s.content
        ∧ consume b s = ({ latch s with ss := .hunt, clen := 0 }, true)) := by
  cases hs : s.ss <;> simp only [consume, hs]
  · refine .inl ⟨_, rfl, .inr ⟨.inl trivial, ?_⟩⟩
    split <;> simp
  · split
    · exact .inr (.inl rfl)
    · refine .inl ⟨_, rfl, .inr ⟨.inr trivial, ?_⟩⟩
      split <;> simp
  · split
    · exact .inl ⟨_, rfl, .inl ⟨trivial, rfl⟩⟩
    · simp only [store]
      split
      · exact .inr (.inr (.inr (.inl ⟨_, _, _, .inl rfl, rfl⟩)))
      · next h => exact .inr (.inr (.inl ⟨h, _, rfl⟩))
  · split
    · simp only [store]
      split
      · exact .inr (.inr (.inr (.inl ⟨_, _, _, .inl rfl, rfl⟩)))
      · next h => exact .inr (.inr (.inl ⟨h, _, rfl⟩))
    split
    · next hb =>
      simp only [validate]
      split
      · exact .inr (.inr (.inr (.inl ⟨_, _, _, .inl rfl, rfl⟩)))
      split
      · exact .inr (.inr (.inr (.inl ⟨_, _, _, .inl rfl, rfl⟩)))
      · next h1 h2 =>
        exact .inr (.inr (.inr (.inr ⟨trivial, hb, by omega, by simpa using h2, rfl⟩)))
    · simp only [badEscape]
      refine .inr (.inr (.inr (.inl ⟨_, _, _, ?_, rfl⟩)))
      split
      · simp
      split <;> simp

/-! ### The synchronizer, state by state (41_busreader R124 to R128) -/

theorem consume_hunt (b : Byte) (s : State) (h : s.ss = .hunt) :
    consume b s = ({ s with ss := if b = DLE then .huntDle else .hunt }, false) := by
  simp only [consume, h]

theorem consume_huntDle_stx (s : State) (h : s.ss = .huntDle) :
    consume STX s = ({ s with ss := .acc, clen := 0 }, false) := by
  simp only [consume, h, if_true]

theorem consume_huntDle_of_ne (b : Byte) (s : State) (h : s.ss = .huntDle) (hb : b ≠ STX) :
    consume b s = ({ s with ss := if b = DLE then .huntDle else .hunt }, false) := by
  simp only [consume, h, if_neg hb]

theorem consume_acc_dle (s : State) (h : s.ss = .acc) : consume DLE s = ({ s with ss := .accDle }, false) := by
  simp only [consume, h, if_true]

theorem consume_acc_of_ne (b : Byte) (s : State) (h : s.ss = .acc) (hb : b ≠ DLE) :
    consume b s = (store b s, false) := by
  simp only [consume, h, if_neg hb]

theorem consume_accDle_nul (s : State) (h : s.ss = .accDle) : consume NUL s = (store DLE s, false) := by
  simp only [consume, h, if_true]

theorem consume_accDle_of_ne (b : Byte) (s : State) (h : s.ss = .accDle) (hn : b ≠ NUL) (he : b ≠ ETX) :
    consume b s = (badEscape b s, false) := by
  simp only [consume, h, if_neg hn, if_neg he]

theorem store_of_lt (x : Byte) (s : State) (h : s.clen < 124) :
    store x s = { s with cbuf := s.cbuf.set s.clen x, clen := s.clen + 1, ss := .acc } := by
  have h' : ¬ s.clen = Config.maxContent := by simp only [Config.maxContent]; omega
  simp only [store, if_neg h']

theorem store_full (x : Byte) (s : State) (h : s.clen = 124) :
    store x s = { raiseFault .oversize 0 s with ss := .hunt, clen := 0 } := by
  have h' : s.clen = Config.maxContent := h
  simp only [store, if_pos h']

/-- A stored byte is appended to the content. -/
theorem take_set_append (l : List Byte) (n : Nat) (x : Byte) (h : n < l.length) :
    (l.set n x).take (n + 1) = l.take n ++ [x] := by
  rw [List.take_add_one, List.take_set_of_le (Nat.le_refl n)]
  simp [h]

/-! ### Validation (41_busreader R129) -/

theorem consume_etx (s : State) (h : s.ss = .accDle) : consume ETX s = validate s := by
  simp only [consume, h]
  rfl

theorem validate_runt (s : State) (h : s.content.length < 3) :
    validate s = ({ raiseFault .runt (BitVec.ofNat 16 s.content.length) s with ss := .hunt, clen := 0 }, false) := by
  simp only [validate, if_pos h]

theorem validate_bad (s : State) (d c k : Byte) (a : List Byte) (h : s.content = [d, c] ++ a ++ [k])
    (hk : frameCs d c a ≠ k) :
    validate s = ({ raiseFault .checksum (frameCs d c a ++ k) s with ss := .hunt, clen := 0 }, false) := by
  have h3 : ¬ s.content.length < 3 := by rw [h]; simp
  simp only [validate, if_neg h3]
  simp only [h, contentCs_shape, contentLast_shape]
  rw [if_pos hk]

theorem validate_ok (s : State) (d c : Byte) (a : List Byte) (h : s.content = [d, c] ++ a ++ [frameCs d c a]) :
    validate s = ({ latch s with ss := .hunt, clen := 0 }, true) := by
  have h3 : ¬ s.content.length < 3 := by rw [h]; simp
  simp only [validate, if_neg h3]
  simp only [h, contentCs_shape, contentLast_shape, ne_eq, not_true_eq_false, if_false]

theorem latch_eq (s : State) (d c k : Byte) (a : List Byte) (h : s.content = [d, c] ++ a ++ [k]) :
    latch s = { s with
      fDest := d, fCmd := c, fNargs := a.length, fArgs := overwrite s.fArgs a
      cnt := { s.cnt with frameOk := s.cnt.frameOk + 1 }, tRef := s.now
      events := s.events ||| Event.frameOk.mask } := by
  simp only [latch, h, contentFrame_shape]
  rfl

/-- Where a consumption step without a validated frame leaves the state. -/
theorem consumeStep_cases (b : Byte) (s t : State) (h : consumeStep b s = .next t) :
    t = (consume b s).1 ∧ (consume b s).2 = false
    ∨ (consume b s).2 = true
      ∧ ((∃ u, unitFor (consume b s).1.enables (consume b s).1.fDest = some u ∧ t = accept u (consume b s).1)
        ∨ (unitFor (consume b s).1.enables (consume b s).1.fDest = none ∧ t = (consume b s).1)) := by
  simp only [consumeStep] at h
  split at h
  · next hv =>
    refine .inr ⟨hv, ?_⟩
    simp only [dispatchFrame] at h
    split at h
    · next u hu => cases h; exact .inl ⟨u, hu, rfl⟩
    · next hu => cases h; exact .inr ⟨hu, rfl⟩
  · next hv => cases h; exact .inl ⟨rfl, by simpa using hv⟩

/-! ### The engine in each state -/

theorem engineStep_recv (s : State) (b : Byte) (rest : List Byte) (hd : s.ds = .recv) (he : s.ctrlEn = true)
    (hf : s.rxFifo = b :: rest) : engineStep s = consumeStep b { s with rxFifo := rest } := by
  cases s
  simp only at hd hf
  subst hd hf
  simp only [engineStep, he, if_true]

theorem engineStep_start (s : State) (hd : s.ds = .stopped) (he : s.ctrlEn = true) :
    engineStep s = .next (startEngine s) := by
  simp only [engineStep, hd, he, if_true]

theorem engineStep_stop (s : State) (hd : s.ds = .recv ∨ s.ds = .gap) (he : s.ctrlEn = false) :
    engineStep s = .next (stopEngine s) := by
  rcases hd with hd | hd <;> simp only [engineStep, hd, he, Bool.false_eq_true, if_false]

theorem engineStep_exec (s : State) (hd : s.ds = .exec) : engineStep s = exec s.latched s := by
  simp only [engineStep, hd]

theorem engineStep_gap (s : State) (hd : s.ds = .gap) (he : s.ctrlEn = true) (hg : gapElapsed s = true) :
    engineStep s = .next (startReply s) := by
  simp only [engineStep, hd, he, hg, if_true]

theorem engineStep_char (s : State) (hd : s.ds = .tx) (hp : s.txPos < s.txLen) :
    engineStep s = .next (emitChar s) := by
  simp only [engineStep, hd, if_pos hp]

theorem engineStep_end (s : State) (hd : s.ds = .tx) (hp : s.txLen ≤ s.txPos) (hn : replyEnd s ≤ s.now) :
    engineStep s = .next (endReply s) := by
  simp only [engineStep, hd, if_neg (Nat.not_lt.2 hp), if_pos hn]

/-- What an engine step can do, state by state (44_dispatcher R180). -/
theorem engineStep_cases (s t : State) (h : engineStep s = .next t) :
    t = s
    ∨ (s.ds = .stopped ∧ s.ctrlEn = true ∧ t = startEngine s)
    ∨ (s.ds = .recv ∧ s.ctrlEn = true ∧ ∃ b rest, s.rxFifo = b :: rest
        ∧ consumeStep b { s with rxFifo := rest } = .next t)
    ∨ ((s.ds = .recv ∨ s.ds = .gap) ∧ s.ctrlEn = false ∧ t = stopEngine s)
    ∨ (s.ds = .exec ∧ ∃ r, CommandEffect s.fUnit s r ∧ t = finishCommand s.fUnit r)
    ∨ (s.ds = .gap ∧ s.ctrlEn = true ∧ gapElapsed s = true ∧ t = startReply s)
    ∨ (s.ds = .tx ∧ s.txPos < s.txLen ∧ t = emitChar s)
    ∨ (s.ds = .tx ∧ s.txLen ≤ s.txPos ∧ replyEnd s ≤ s.now ∧ t = endReply s) := by
  cases hd : s.ds <;> simp only [engineStep, hd] at h
  · cases h
    split
    · next he => exact .inr (.inl ⟨rfl, he, rfl⟩)
    · exact .inl rfl
  · split at h
    · next he =>
      split at h
      · cases h; exact .inl rfl
      · next b rest hf => exact .inr (.inr (.inl ⟨rfl, he, b, rest, hf, h⟩))
    · next he => cases h; exact .inr (.inr (.inr (.inl ⟨.inl rfl, by simpa using he, rfl⟩)))
  · obtain ⟨r, hr, he⟩ := exec_command s.latched s.fUnit s (commandOf_unit _ _ _)
    rw [hr] at h
    cases h
    exact .inr (.inr (.inr (.inr (.inl ⟨rfl, r, he, rfl⟩))))
  · cases h
    split
    · next he =>
      split
      · next hg => exact .inr (.inr (.inr (.inr (.inr (.inl ⟨rfl, he, hg, rfl⟩)))))
      · exact .inl rfl
    · next he => exact .inr (.inr (.inr (.inl ⟨.inr rfl, by simpa using he, rfl⟩)))
  · cases h
    split
    · next hp => exact .inr (.inr (.inr (.inr (.inr (.inr (.inl ⟨rfl, hp, rfl⟩))))))
    split
    · next hp he => exact .inr (.inr (.inr (.inr (.inr (.inr (.inr ⟨rfl, by omega, he, rfl⟩))))))
    · exact .inl rfl

/-- What a step can do: the move it takes, and what that move does to the state without it. -/
theorem step_cases (s t : State) (h : step s = .next t) :
    (∃ v err, s.nextMove = .line v err ∧ t = arrive v err s.popped)
    ∨ (s.nextMove = .engine ∧ engineStep s.popped = .next t)
    ∨ (∃ acc, s.nextMove = .host acc ∧ exec (accessInstr acc) s.popped = .next t)
    ∨ (∃ dt, s.nextMove = .time dt ∧ t = { s.popped with now := s.now + dt })
    ∨ (s.nextMove = .reset ∧ t = applyReset s.popped) := by
  rw [step_eq] at h
  cases hm : s.nextMove <;> rw [hm] at h <;> simp only [runMove] at h
  · cases h; exact .inl ⟨_, _, rfl, rfl⟩
  · exact .inr (.inl ⟨rfl, h⟩)
  · exact .inr (.inr (.inl ⟨_, rfl, h⟩))
  · cases h; exact .inr (.inr (.inr (.inl ⟨_, rfl, rfl⟩)))
  · cases h; exact .inr (.inr (.inr (.inr ⟨rfl, rfl⟩)))

/-! ### The trace of the line -/

theorem charsFrom_append (t0 byte i : Nat) (x y : List Byte) :
    charsFrom t0 byte i (x ++ y) = charsFrom t0 byte i x ++ charsFrom t0 byte (i + x.length) y := by
  induction x generalizing i with
  | nil => rfl
  | cons v x ih =>
    simp only [List.cons_append, charsFrom, ih, List.length_cons]
    rw [Nat.add_assoc, Nat.add_comm 1]

theorem charsFrom_eq_mapIdx (t0 byte i : Nat) (x : List Byte) :
    charsFrom t0 byte i x = x.mapIdx fun n v => LineOut.char (t0 + (i + n) * byte) v := by
  induction x generalizing i with
  | nil => rfl
  | cons v x ih =>
    simp only [charsFrom, List.mapIdx_cons, Nat.add_zero, ih, List.cons.injEq, true_and]
    congr 1
    funext n w
    rw [Nat.add_assoc, Nat.add_comm 1]

/-- Characters of which the last has ended by `now` have all ended. -/
theorem charsFrom_ended (t0 byte i now : Nat) (x : List Byte) (h : t0 + (i + x.length) * byte ≤ now) :
    ∀ o ∈ charsFrom t0 byte i x, o.ended byte now = true := by
  induction x generalizing i with
  | nil => simp [charsFrom]
  | cons v x ih =>
    rw [List.length_cons, show i + (x.length + 1) = i + 1 + x.length from by omega] at h
    intro o ho
    rcases List.mem_cons.1 ho with rfl | ho
    · have h1 : (i + 1) * byte ≤ (i + 1 + x.length) * byte := Nat.mul_le_mul_right _ (by omega)
      rw [Nat.succ_mul] at h1
      exact decide_eq_true (by omega)
    · exact ih (i + 1) h o ho

theorem ended_mono (o : LineOut) (byte m n : Nat) (h : o.ended byte m = true) (hmn : m ≤ n) :
    o.ended byte n = true := by
  cases o with
  | driver t on => rfl
  | char t v => exact decide_eq_true (Nat.le_trans (of_decide_eq_true h) hmn)

/-- The trace of a cut reply: what stood before it, the driver's edges, and between them the characters of the whole
reply that have ended by the reset (70_reset R252). -/
theorem cutLine_of_sending (s : State) (before : List LineOut) (hb : ∀ o ∈ before, o.ended (byteNs s.par) s.txT0 = true)
    (hl : s.lineOut = before ++ .driver s.txT0 true :: charsFrom s.txT0 (byteNs s.par) 0 (s.txBuf.take s.txPos))
    (hp : s.txPos ≤ s.txLen) (hn : s.txLen ≤ s.txBuf.length) (ht : s.txT0 ≤ s.now) :
    s.cutLine = before ++ .driver s.txT0 true ::
      (charsFrom s.txT0 (byteNs s.par) 0 (s.txBuf.take s.txLen)).filter (·.ended (byteNs s.par) s.now)
        ++ [.driver s.now false] := by
  have e : s.txBuf.take s.txLen = s.txBuf.take s.txPos ++ (s.txBuf.take s.txLen).drop s.txPos := by
    conv_lhs => rw [← List.take_append_drop s.txPos (s.txBuf.take s.txLen)]
    rw [List.take_take, Nat.min_eq_left hp]
  have hlen : (s.txBuf.take s.txPos).length = s.txPos := by
    rw [List.length_take]; omega
  have hbf : before.filter (·.ended (byteNs s.par) s.now) = before :=
    List.filter_eq_self.2 fun o ho => ended_mono o _ _ _ (hb o ho) ht
  have e2 : charsFrom s.txT0 (byteNs s.par) 0 (s.txBuf.take s.txLen)
      = charsFrom s.txT0 (byteNs s.par) 0 (s.txBuf.take s.txPos) ++ s.unsent := by
    conv_lhs => rw [e, charsFrom_append, hlen, Nat.zero_add]
    rfl
  rw [State.cutLine, hl, e2, List.append_assoc, List.filter_append, hbf, List.cons_append, List.filter_cons_of_pos rfl]

/-- What an arriving character can do (41_busreader R121). -/
theorem arrive_cases (v : Byte) (err : Bool) (s : State) :
    arrive v err s = s ∨ (s.ds ≠ .stopped ∧ s.de = false ∧ ∃ c x, arrive v err s = raiseFault c x s)
    ∨ (s.ds ≠ .stopped ∧ s.de = false ∧ s.rxFifo.length ≠ s.par.rxFifoDepth
        ∧ arrive v err s = { s with rxFifo := s.rxFifo ++ [v] }) := by
  simp only [arrive]
  split
  · exact .inl rfl
  · next h =>
    simp only [not_or, Bool.not_eq_true] at h
    split
    · exact .inr (.inl ⟨h.1, h.2, _, _, rfl⟩)
    split
    · exact .inr (.inl ⟨h.1, h.2, _, _, rfl⟩)
    · next hl => exact .inr (.inr ⟨h.1, h.2, hl, rfl⟩)

/-- What a host access can do to a state, without its value: read data, a recorded fault, or one register. -/
theorem access_cases (acc : HostAccess) (s t : State) (h : exec (accessInstr acc) s = .next t) :
    (∃ v, t = hostReturn v s) ∨ t = s ∨ (∃ x, t = raiseFault .hostAccess x s)
    ∨ (∃ x, t = raiseFault .hostAccess x (hostReturn 0 s))
    ∨ (∃ v : Word, t = { s with ctrl := v.setWidth 4 })
    ∨ (∃ v : Word, t = { s with events := s.events &&& ~~~(v.setWidth 12) })
    ∨ (∃ u p v, acc = .write (keyAddr u) v
        ∧ t = setPending u p s) := by
  have hk : ∀ u v, writeKey u v s = s ∨ ∃ p, writeKey u v s = setPending u p s := by
    intro u v
    simp only [writeKey]
    split
    · exact .inr ⟨_, rfl⟩
    · exact .inl rfl
  rcases exec_access acc s with ⟨_, v, _, _, e⟩ | ⟨_, _, _, e⟩ | ⟨_, _, _, _, e⟩ | ⟨_, _, _, e⟩ | ⟨v, _, e⟩ | ⟨v, _, e⟩ |
    ⟨v, ha, e⟩ | ⟨v, ha, e⟩ | ⟨v, ha, e⟩ <;> rw [e] at h <;> cases h
  · exact .inl ⟨v, rfl⟩
  · exact .inr (.inr (.inr (.inl ⟨_, rfl⟩)))
  · exact .inr (.inr (.inl ⟨_, rfl⟩))
  · exact .inr (.inl rfl)
  · exact .inr (.inr (.inr (.inr (.inl ⟨v, rfl⟩))))
  · exact .inr (.inr (.inr (.inr (.inr (.inl ⟨v, rfl⟩)))))
  · rcases hk .sq v with hk | ⟨p, hk⟩
    · exact .inr (.inl hk)
    · exact .inr (.inr (.inr (.inr (.inr (.inr ⟨.sq, p, v, ha, hk⟩)))))
  · rcases hk .pda v with hk | ⟨p, hk⟩
    · exact .inr (.inl hk)
    · exact .inr (.inr (.inr (.inr (.inr (.inr ⟨.pda, p, v, ha, hk⟩)))))
  · rcases hk .spa v with hk | ⟨p, hk⟩
    · exact .inr (.inl hk)
    · exact .inr (.inr (.inr (.inr (.inr (.inr ⟨.spa, p, v, ha, hk⟩)))))

end Sys2Proof.Machine
end

