-- ==== Sys2Proof/Tests/Slice0.lean ====
section
/-! SUPPORT. The model's own tests: ill-formed terms that WellFormed refuses, words written out from the spec that
decode to their instructions, single steps with the values of spec/95_test_vectors.md (named in each comment), and
for every obligation with hypotheses a state and operands that meet them. -/

namespace Sys2Proof.Tests

open Sys2Proof.Machine Sys2Proof.Spec

/-! ### States for the tests -/

/-- The illustrative OPEN values of spec/95_test_vectors.md, with key maps of our own and a FIFO of 2. -/
def testPar : Params where
  baudPred := 9599
  rxFifoPred := 1
  keymapSq := #v[0xA0, 0xA1, 0xA2, 0xA3, 0xA4, 0xA5]
  keymapPda := #v[0xB0, 0xB1, 0xB2, 0xB3, 0xB4, 0xB5]
  keymapSpa := #v[0xC0, 0xC1, 0xC2, 0xC3, 0xC4, 0xC5, 0xC6, 0xC7, 0xC8]
  spaTxtOff := 0
  spaPwroffOff := 3
  spaSetOff := 9
  spaSetMark := ⟨0x53, []⟩
  spaAirOff := 10
  spaAirMark := ⟨0x41, []⟩
  spaH2oOff := 11
  spaH2oMark := ⟨0x48, []⟩

/-- Every unit enabled, receiving. -/
def recv : State := { State.reset with par := testPar, ctrl := 0xF, ds := .recv }

/-- Receiving, the last byte of the content not yet ended: `c` accumulated, a `DLE` pending, `fifo` behind it. -/
def pendingDle (c fifo : List Byte) : State :=
  { recv with
    ss := .accDle, cbuf := c ++ List.replicate (124 - c.length) 0x00, clen := c.length, rxFifo := fifo
    schedule := [.engine] }

/-- The command `c` with arguments `a` in the latch for unit SQ, about to run. -/
def execSq (c : Byte) (a : List Byte) : State :=
  { recv with
    ds := .exec, fDest := 0x40, fCmd := c, fNargs := a.length, fArgs := a ++ List.replicate (121 - a.length) 0x00
    fUnit := .sq, schedule := [.engine] }

/-- A reply of unit SQ in the transmit buffer, its gap elapsed. -/
def inGap : State :=
  { recv with
    ds := .gap, fDest := 0x40, txBuf := [0x10, 0x02, 0x00, 0x01, 0x8B, 0x00, 0x9E, 0x10, 0x03, 0x00], txLen := 9
    now := 4000000, schedule := [.engine] }

/-- The same reply on the line, its third character next. -/
def inTx : State := { inGap with
  ds := .tx, de := true, reN := true, txT0 := 4000000, txPos := 2
  lineOut := [.driver 4000000 true, .char 4000000 0x10, .char 5041667 0x02] }

/-- The same reply after `k` of its characters were emitted, at time `now`, with the reset input next. -/
def resetInTx (k now : Nat) : State := { inTx with
  txPos := k, now := now, schedule := [.reset]
  lineOut := .driver 4000000 true :: charsFrom 4000000 1041667 0 (inGap.txBuf.take k) }

/-- A row that begins with these bytes. -/
def rowOf (b : List Byte) : List Byte := b ++ List.replicate (16 - b.length) 0x20

/-- `recv` with other rows 2, 3 and 4 in the square keypad. -/
def rows234 (a b c : List Byte) : State :=
  withSqDisp recv (((recv.sq.disp.set 2 (rowOf a)).set 3 (rowOf b)).set 4 (rowOf c))

/-- The state an outcome holds, or `s`. -/
def nextOr (s : State) (o : Host.Outcome State Fault Refusal) : State :=
  match o with
  | .next t => t
  | .fault _ => s
  | .refused _ => s

/-- The state after an instruction. -/
def after (i : Instr) (s : State) : State := nextOr s (exec i s)

/-- The state after a step. -/
def stepped (s : State) : State := nextOr s (step s)

/-- The outcome is a next state. -/
def isNext (o : Host.Outcome State Fault Refusal) : Bool :=
  match o with
  | .next _ => true
  | .fault _ => false
  | .refused _ => false

theorem step_stepped (s : State) (h : isNext (step s) = true) : step s = .next (stepped s) := by
  unfold stepped
  cases e : step s with
  | next t => rfl
  | fault r => rw [e] at h; cases h
  | refused r => rw [e] at h; cases h

/-- What a read returns. -/
def readOf (i : Instr) (s : State) : Word := (after i s).hostRdata

/-! ### WellFormed refuses -/

/-- Too many argument bytes for each kind of frame (30_encoding R95). -/
theorem test_wf_args :
    (Instr.sqWrite (List.replicate 122 0x41)).wf = false ∧ (Instr.pdaStatus (List.replicate 122 0x41)).wf = false
    ∧ (Instr.spaTstatus (List.replicate 122 0x41)).wf = false
    ∧ (Instr.discard 0xFF 0x00 (List.replicate 122 0x41)).wf = false
    ∧ (Instr.sqUnknown 0x01 (List.replicate 122 0x41)).wf = false
    ∧ (Instr.spaUnknown 0x01 (List.replicate 122 0x41)).wf = false := by decide +kernel

/-- A known command byte is no unknown command (R98). -/
theorem test_wf_unknown :
    (Instr.sqUnknown 0x10 []).wf = false ∧ (Instr.pdaUnknown 0x02 []).wf = false
    ∧ (Instr.spaUnknown 0x03 []).wf = false ∧ (Instr.spaUnknown 0x05 []).wf = true := by decide

/-- Misaligned and unmapped accesses are those that 20_memory R72 and R76 name. -/
theorem test_wf_access :
    (Instr.hMisaligned (.read 0x004)).wf = false ∧ (Instr.hUnmapped (.read 0x042)).wf = false
    ∧ (Instr.hUnmapped (.read 0x104)).wf = false ∧ (Instr.hUnmapped (.write 0x100 0)).wf = false
    ∧ (Instr.hUnmapped (.write 0x104 0)).wf = true := by decide

/-- A disabled unit admits no command, and an enabled unit's frame is not discarded (R98, R102). -/
theorem test_wf_admissible :
    (Instr.sqProbe []).admissible ⟨false, true, true⟩ = false
    ∧ (Instr.discard 0x60 0x00 []).admissible ⟨false, true, true⟩ = false
    ∧ (Instr.discard 0x40 0x00 []).admissible ⟨false, true, true⟩ = true := by decide

/-! ### Decoding: words written out from the spec -/

/-- The SQ commands: 95_test_vectors sections 2, 4 and 5; the rest by 30_encoding R90 to R93. -/
theorem test_decode_sq :
    decode Enables.all (.rx [0x10, 0x02, 0x40, 0x00, 0x52, 0x10, 0x03]) = .ok (.sqProbe [])
    ∧ decode Enables.all (.rx [0x10, 0x02, 0x40, 0x02, 0x12, 0x34, 0x9A, 0x10, 0x03]) = .ok (.sqStatus [0x12, 0x34])
    ∧ decode Enables.all (.rx [0x10, 0x02, 0x40, 0x04, 0x10, 0x00, 0x58, 0xBE, 0x10, 0x03]) = .ok (.sqWrite [0x10, 0x58])
    ∧ decode Enables.all (.rx [0x10, 0x02, 0x40, 0x05, 0x57, 0x10, 0x03]) = .ok (.sqHandshake [])
    ∧ decode Enables.all (.rx [0x10, 0x02, 0x40, 0x08, 0x04, 0x5E, 0x10, 0x03]) = .ok (.sqInvline [0x04])
    ∧ decode Enables.all (.rx [0x10, 0x02, 0x40, 0x09, 0x00, 0x5B, 0x10, 0x03]) = .ok (.sqClear [0x00])
    ∧ decode Enables.all (.rx [0x10, 0x02, 0x40, 0x0F, 0x02, 0x05, 0xFF, 0x67, 0x10, 0x03]) = .ok (.sqScroll [0x02, 0x05, 0xFF])
    ∧ decode Enables.all (.rx [0x10, 0x02, 0x40, 0x10, 0x00, 0x10, 0x00, 0x10, 0x00, 0x82, 0x10, 0x03]) = .ok (.sqInvrange [0x10, 0x10])
    ∧ decode Enables.all (.rx [0x10, 0x02, 0x40, 0xBE, 0x10, 0x00, 0x10, 0x03]) = .ok (.sqUnknown 0xBE []) := by decide

/-- The PDA commands: 95_test_vectors sections 2, 4 and 5; the rest by 30_encoding R90 to R93. -/
theorem test_decode_pda :
    decode Enables.all (.rx [0x10, 0x02, 0x60, 0x00, 0x72, 0x10, 0x03]) = .ok (.pdaProbe [])
    ∧ decode Enables.all (.rx [0x10, 0x02, 0x60, 0x02, 0x01, 0x02, 0x03, 0x04, 0x05, 0x83, 0x10, 0x03]) = .ok (.pdaStatus [0x01, 0x02, 0x03, 0x04, 0x05])
    ∧ decode Enables.all (.rx [0x10, 0x02, 0x60, 0x04, 0x82, 0x37, 0x38, 0x46, 0xAD, 0x10, 0x03]) = .ok (.pdaWrite [0x82, 0x37, 0x38, 0x46])
    ∧ decode Enables.all (.rx [0x10, 0x02, 0x60, 0x05, 0x77, 0x10, 0x03]) = .ok (.pdaHandshake [])
    ∧ decode Enables.all (.rx [0x10, 0x02, 0x60, 0x08, 0x09, 0x83, 0x10, 0x03]) = .ok (.pdaInvline [0x09])
    ∧ decode Enables.all (.rx [0x10, 0x02, 0x60, 0x09, 0x7B, 0x10, 0x03]) = .ok (.pdaClear [])
    ∧ decode Enables.all (.rx [0x10, 0x02, 0x60, 0x0F, 0x00, 0x0B, 0xFF, 0x8B, 0x10, 0x03]) = .ok (.pdaScroll [0x00, 0x0B, 0xFF])
    ∧ decode Enables.all (.rx [0x10, 0x02, 0x60, 0x10, 0x00, 0x01, 0x02, 0x05, 0x8A, 0x10, 0x03]) = .ok (.pdaInvrange [0x01, 0x02, 0x05])
    ∧ decode Enables.all (.rx [0x10, 0x02, 0x60, 0x7E, 0xF0, 0x10, 0x03]) = .ok (.pdaUnknown 0x7E []) := by decide

/-- The SPA commands: 95_test_vectors sections 2, 4 and 5; the rest by 30_encoding R90 to R93. -/
theorem test_decode_spa :
    decode Enables.all (.rx [0x10, 0x02, 0x20, 0x00, 0x32, 0x10, 0x03]) = .ok (.spaProbe [])
    ∧ decode Enables.all (.rx [0x10, 0x02, 0x20, 0x02, 0x10, 0x00, 0x44, 0x10, 0x03]) = .ok (.spaBstatus [0x10])
    ∧ decode Enables.all (.rx [0x10, 0x02, 0x20, 0x03, 0x30, 0x46, 0x46, 0xF1, 0x10, 0x03]) = .ok (.spaTstatus [0x30, 0x46, 0x46])
    ∧ decode Enables.all (.rx [0x10, 0x02, 0x20, 0x09, 0x01, 0x01, 0x3D, 0x10, 0x03]) = .ok (.spaChreq [0x01, 0x01])
    ∧ decode Enables.all (.rx [0x10, 0x02, 0x20, 0x05, 0x37, 0x10, 0x03]) = .ok (.spaUnknown 0x05 []) := by decide

/-- A frame for no enabled unit, and a unit's frame while it is disabled (95_test_vectors S15, S11). -/
theorem test_decode_discard :
    decode Enables.all (.rx [0x10, 0x02, 0xFF, 0xFF, 0x10, 0x00, 0x10, 0x03]) = .ok (.discard 0xFF 0xFF [])
    ∧ decode ⟨true, false, false⟩ (.rx [0x10, 0x02, 0x60, 0x00, 0x72, 0x10, 0x03]) = .ok (.discard 0x60 0x00 []) := by
  decide

/-- The replies of the three units (95_test_vectors section 2). -/
theorem test_decode_ack :
    decode Enables.all (.reply [0x10, 0x02, 0x00, 0x01, 0x8B, 0x72, 0x10, 0x00, 0x10, 0x03]) = .ok (.ack .sq 0x72)
    ∧ decode Enables.all (.reply [0x10, 0x02, 0x00, 0x01, 0x40, 0x10, 0x00, 0x63, 0x10, 0x03]) = .ok (.ack .pda 0x10)
    ∧ decode Enables.all (.reply [0x10, 0x02, 0x00, 0x01, 0x00, 0xFF, 0x12, 0x10, 0x03]) = .ok (.ack .spa 0xFF) := by
  decide

/-- What is no frame is refused by name (95_test_vectors S3, S4, S5, S14). -/
theorem test_decode_refuses :
    decode Enables.all (.rx [0x10, 0x02, 0x40, 0x01, 0x52, 0x10, 0x03]) = .error (.badChecksum 0x53 0x52)
    ∧ decode Enables.all (.rx [0x10, 0x02, 0x40, 0x00, 0x10, 0x03]) = .error (.runt 2)
    ∧ decode Enables.all (.rx [0x10, 0x02, 0x40, 0x10, 0x41]) = .error (.badEscape 0x41)
    ∧ decode Enables.all (.rx [0x10, 0x02, 0x40, 0x00, 0x52]) = .error .noTrailer
    ∧ decode Enables.all (.rx [0x40, 0x00, 0x52, 0x10, 0x03]) = .error .noHeader
    ∧ decode Enables.all (.reply [0x10, 0x02, 0x40, 0x00, 0x52, 0x10, 0x03]) = .error (.notAReply ⟨0x40, 0x00, []⟩) := by
  decide

/-- The longest frame decodes, and one byte more does not (95_test_vectors E1, S9). -/
theorem test_decode_longest :
    decode Enables.all (encode (.sqStatus (List.replicate 121 0x41))) = .ok (.sqStatus (List.replicate 121 0x41))
    ∧ decode Enables.all (encode (.sqStatus (List.replicate 122 0x41))) = .error (.oversize 125) := by decide +kernel

/-- The global registers (20_memory R75). -/
theorem test_decode_global :
    accessInstr (.read 0x000) = .hCtrlRd
    ∧ accessInstr (.read 0x004) = .hStatusRd
    ∧ accessInstr (.read 0x008) = .hEventsRd
    ∧ accessInstr (.read 0x00C) = .hLastErrRd
    ∧ accessInstr (.read 0x010) = .hCntFrameOkRd
    ∧ accessInstr (.read 0x014) = .hCntAddressedRd
    ∧ accessInstr (.read 0x018) = .hCntErrChecksumRd
    ∧ accessInstr (.read 0x01C) = .hCntErrEscapeRd
    ∧ accessInstr (.read 0x020) = .hCntErrOversizeRd
    ∧ accessInstr (.read 0x024) = .hCntErrRuntRd
    ∧ accessInstr (.read 0x028) = .hCntErrLineRd
    ∧ accessInstr (.read 0x02C) = .hCntErrOverrunRd
    ∧ accessInstr (.read 0x030) = .hCntReplySentRd
    ∧ accessInstr (.read 0x034) = .hCntUnknownCmdRd
    ∧ accessInstr (.read 0x038) = .hCntErrCmdArgRd
    ∧ accessInstr (.read 0x03C) = .hCntErrHostRd
    ∧ accessInstr (.write 0x000 0x5) = .hCtrlWr 0x5
    ∧ accessInstr (.write 0x008 0x5) = .hEventsW1c 0x5 := by decide

/-- The SQ page, the last words of both windows among it (20_memory R75). -/
theorem test_decode_sq_host :
    accessInstr (.read 0x100) = .hPendingRdSq
    ∧ accessInstr (.read 0x104) = .hInvRdSq
    ∧ accessInstr (.read 0x108) = .hKstatLenRdSq
    ∧ accessInstr (.read 0x10C) = .hDimsRdSq
    ∧ accessInstr (.read 0x110) = .hSeqRdSq
    ∧ accessInstr (.read 0x180) = .hKstatRdSq 0
    ∧ accessInstr (.read 0x1FC) = .hKstatRdSq 31
    ∧ accessInstr (.read 0x200) = .hDispRdSq 0
    ∧ accessInstr (.read 0x2FC) = .hDispRdSq 63
    ∧ accessInstr (.write 0x100 0x3) = .hKeyWrSq 0x3 := by decide

/-- The PDA page, the last words of both windows among it (20_memory R75). -/
theorem test_decode_pda_host :
    accessInstr (.read 0x400) = .hPendingRdPda
    ∧ accessInstr (.read 0x404) = .hInvRdPda
    ∧ accessInstr (.read 0x408) = .hKstatLenRdPda
    ∧ accessInstr (.read 0x40C) = .hDimsRdPda
    ∧ accessInstr (.read 0x410) = .hSeqRdPda
    ∧ accessInstr (.read 0x480) = .hKstatRdPda 0
    ∧ accessInstr (.read 0x4FC) = .hKstatRdPda 31
    ∧ accessInstr (.read 0x500) = .hDispRdPda 0
    ∧ accessInstr (.read 0x5FC) = .hDispRdPda 63
    ∧ accessInstr (.write 0x400 0x3) = .hKeyWrPda 0x3 := by decide

/-- The SPA page (20_memory R75). -/
theorem test_decode_spa_host :
    accessInstr (.read 0x700) = .hPendingRdSpa
    ∧ accessInstr (.read 0x704) = .hSpaStateRd
    ∧ accessInstr (.read 0x708) = .hSpaTextLenRd
    ∧ accessInstr (.read 0x70C) = .hDimsRdSpa
    ∧ accessInstr (.read 0x710) = .hSeqRdSpa
    ∧ accessInstr (.read 0x720) = .hSpaTextRd 0
    ∧ accessInstr (.read 0x724) = .hSpaTextRd 1
    ∧ accessInstr (.write 0x700 0x8) = .hKeyWrSpa 0x8 := by decide

/-- Misaligned and unmapped accesses, at the edges of the map (95_test_vectors H7 to H11). -/
theorem test_decode_outside :
    accessInstr (.read 0x002) = .hMisaligned (.read 0x002)
    ∧ accessInstr (.write 0x101 3) = .hMisaligned (.write 0x101 3)
    ∧ accessInstr (.read 0x040) = .hUnmapped (.read 0x040) ∧ accessInstr (.read 0x114) = .hUnmapped (.read 0x114)
    ∧ accessInstr (.read 0x17C) = .hUnmapped (.read 0x17C) ∧ accessInstr (.read 0x300) = .hUnmapped (.read 0x300)
    ∧ accessInstr (.read 0x600) = .hUnmapped (.read 0x600) ∧ accessInstr (.read 0x714) = .hUnmapped (.read 0x714)
    ∧ accessInstr (.read 0x728) = .hUnmapped (.read 0x728) ∧ accessInstr (.read 0xFFC) = .hUnmapped (.read 0xFFC)
    ∧ accessInstr (.write 0x004 0) = .hUnmapped (.write 0x004 0)
    ∧ accessInstr (.write 0x200 0) = .hUnmapped (.write 0x200 0) := by decide

/-- Words of spec/opcode_table.json: a frame key, a host read, a host write with its data, the reply key. -/
theorem test_table_words :
    decodeTableWord 16 0x4004 = some (.sqWrite [0x00]) ∧ decodeTableWord 16 0x600F = some (.pdaScroll [0, 0, 0])
    ∧ decodeTableWord 24 0x192002 = some (.spaBstatus [0x19])
    ∧ decodeTableWord 16 0x0204 = some (.hDispRdSq 1) ∧ decodeTableWord 48 0x31100 = some (.hKeyWrSq 3)
    ∧ decodeTableWord 16 0x0001 = some (.ack .spa 0x00) := by decide

/-! ### Single steps, with the spec's values -/

/-- E7: the reply to SQ's write of "HI", its counters and its row. -/
theorem test_write_hi :
    (after (.sqWrite [0x00, 0x48, 0x49]) recv).sq.disp[0]? = some (rowOf [0x48, 0x49])
    ∧ (after (.sqWrite [0x00, 0x48, 0x49]) recv).txBuf.take 9 = [0x10, 0x02, 0x00, 0x01, 0x8B, 0x00, 0x9E, 0x10, 0x03]
    ∧ (after (.sqWrite [0x00, 0x48, 0x49]) recv).sq.seq = 1 := by decide

/-- W7, W4: text stops at the first 00, and row 12 faults with INFO 0x4004. -/
theorem test_write_edges :
    (after (.sqWrite [0x01, 0x41, 0x42, 0x00, 0x43]) recv).sq.disp[1]? = some (rowOf [0x41, 0x42])
    ∧ (after (.sqWrite [0x0C, 0x58]) (execSq 0x04 [0x0C, 0x58])).lastErrImage = 0x40040007 := by decide

/-- W10, W11, W12: the PDA row map. -/
theorem test_pda_write :
    (after (.pdaWrite [0x40, 0x31]) recv).pda.disp[0]? = some (rowOf [0x31])
    ∧ (after (.pdaWrite [0x82, 0x37]) recv).pda.disp[2]? = some (rowOf [0x37])
    ∧ (after (.pdaWrite [0x0A, 0x58]) recv).pda.disp = recv.pda.disp := by decide

/-- SC1, SC2: up and down. -/
theorem test_scroll :
    (after (.sqScroll [2, 5, 0xFF]) (rows234 [0x41] [0x42] [0x43])).sq.disp = (rows234 [0x42] [0x43] []).sq.disp
    ∧ (after (.sqScroll [2, 5, 0x01]) (rows234 [0x41] [0x42] [0x43])).sq.disp = (rows234 [] [0x41] [0x42]).sq.disp := by
  decide

/-- SC4, SC5: the direction is checked before the region. -/
theorem test_scroll_order :
    (after (.sqScroll [5, 5, 0x00]) recv).cnt.errCmdArg = 0
    ∧ (after (.sqScroll [5, 5, 0xFF]) recv).cnt.errCmdArg = 1 := by decide

/-- I1, I6, R2, R4: the inverted region as the host reads it. -/
theorem test_invert :
    readOf .hInvRdSq (after (.sqInvline [4]) recv) = 0x10000401
    ∧ readOf .hInvRdPda (after (.pdaInvline [10]) recv) = 0
    ∧ readOf .hInvRdSq (after (.sqInvrange [0, 0, 16]) recv) = 0x10000001
    ∧ readOf .hInvRdSq (after (.sqInvrange [0, 3, 17]) (after (.sqInvrange [1, 2, 5]) recv)) = 0x05020101 := by decide

/-- K3, K7: the status store as words, and an unknown command. -/
theorem test_status_unknown :
    readOf (.hKstatRdPda 0) (after (.pdaStatus [1, 2, 3, 4, 5]) recv) = 0x04030201
    ∧ readOf (.hKstatRdPda 1) (after (.pdaStatus [1, 2, 3, 4, 5]) recv) = 0x00000005
    ∧ (after (.sqUnknown 0x01 [0x8B, 0x00]) recv).events = 0x120 := by decide

/-- B3, B5, B6, B8: the spa status map as the host reads it. -/
theorem test_spa_status :
    readOf .hSpaStateRd (after (.spaBstatus [0x08]) recv) = 0x25
    ∧ readOf .hSpaStateRd (after (.spaBstatus [0x10]) recv) = 0x16
    ∧ readOf .hSpaStateRd (after (.spaBstatus [0xE6]) recv) = 0x15
    ∧ readOf .hSpaStateRd (after (.spaBstatus []) (after (.spaBstatus [0x19]) recv)) = 0 := by decide

/-- T1, T4, T7, T8: the spa text. -/
theorem test_spa_text :
    (after (.spaTstatus [0x30, 0x46, 0x46]) recv).spa.text = [0x4F, 0x46, 0x46, 0x20, 0x48, 0x32, 0x4F]
    ∧ (after (.spaTstatus [0x31, 0x30, 0x32, 0x2D, 0x2D, 0x2D, 0x2D, 0x2D, 0x2D, 0x53, 0x41]) recv).spa.text
        = [0x31, 0x30, 0x32, 0x20, 0x53, 0x45, 0x54]
    ∧ (after (.spaTstatus [0x31, 0x30]) recv).spa.textLen = 0
    ∧ (after (.spaTstatus [0x61, 0x62, 0x63, 0x20, 0x2E, 0x20, 0x2E, 0x20, 0x2E]) recv).spa.text
        = [0x2E, 0x2E, 0x2E, 0x20, 0x2E, 0x2E, 0x2E] := by decide

/-- H4, H7, H13, H14, H18: the host's writes and a misaligned read. -/
theorem test_host :
    readOf .hCtrlRd (after (.hCtrlWr 0xFFFFFFFF) recv) = 0x0000000F
    ∧ readOf .hLastErrRd (after (.hMisaligned (.read 0x002)) recv) = 0x00020008
    ∧ (after (.hKeyWrSq 0x13) recv).sq.pending = 0xA3 ∧ (after (.hKeyWrSq 9) recv).sq.pending = 0x00
    ∧ (after (.hEventsW1c 1) { recv with events := 0x141 }).events = 0x140 := by decide

/-- H6: STATUS while a frame accumulates. -/
theorem test_status_register : readOf .hStatusRd { recv with ss := .acc, clen := 2 } = 0x00000223 := by decide

/-- S3, S4c, S14: a checksum fault, a runt and a missing filler. -/
theorem test_receive_faults :
    (stepped (pendingDle [0x40, 0x01, 0x52] [0x03])).lastErrImage = 0x53520001
    ∧ (stepped (pendingDle [0x40, 0x00] [0x03])).lastErrImage = 0x00020004
    ∧ (stepped (pendingDle [0x40, 0x04] [0x58])).lastErrImage = 0x00580002 := by decide

/-- L1, L3: a line error, and a character that finds the FIFO of 2 full. -/
theorem test_arrival :
    (stepped { recv with schedule := [.line 0x41 true] }).lastErrImage = 0x00410005
    ∧ (stepped { recv with rxFifo := [0x10, 0x02], schedule := [.line 0x40 false] }).lastErrImage = 0x00400006 := by
  decide

/-- TM1 with 9600 baud: a character takes 1 041 667 ns, and the reply starts when the gap is over. -/
theorem test_timing :
    byteNs testPar = 1041667 ∧ (stepped inGap).txT0 = 4000000 ∧ (stepped { inGap with now := 3999999 }).ds = .gap
    ∧ (stepped inTx).lineOut = inTx.lineOut ++ [.char 6083334 0x00] := by decide

/-- X7: a reset after 5 of 9 characters leaves the fragment 10 02 00 01 8B, however many of the steps that emit the
characters were taken by then. One nanosecond before the reply's end the last character is still lost, and at its end
nothing is. -/
theorem test_reset_cuts :
    (let fragment : List LineOut := [.driver 4000000 true, .char 4000000 0x10, .char 5041667 0x02, .char 6083334 0x00,
      .char 7125001 0x01, .char 8166668 0x8B, .driver 9208335 false]
    (stepped (resetInTx 5 9208335)).lineOut = fragment ∧ (stepped (resetInTx 2 9208335)).lineOut = fragment
      ∧ (stepped (resetInTx 9 9208335)).lineOut = fragment)
    ∧ (stepped (resetInTx 9 13375002)).lineOut = (resetInTx 8 0).lineOut ++ [.driver 13375002 false]
    ∧ (stepped (resetInTx 9 13375003)).lineOut = (resetInTx 9 0).lineOut ++ [.driver 13375003 false] := by decide +kernel

/-! ### The hypotheses of the statements are met -/

/-- The longest well-formed frames, a discarded one, a reply and the two rows outside the host map. -/
theorem test_wit_DecodeAfterEncode :
    (Instr.sqStatus (List.replicate 121 0x10)).wf = true ∧ (Instr.sqStatus [0x10]).admissible Enables.all = true
    ∧ (Instr.discard 0x40 0x01 [0x10]).wf = true ∧ (Instr.discard 0x40 0x01 []).admissible ⟨false, true, true⟩ = true
    ∧ (Instr.ack .pda 0xBD).wf = true ∧ (Instr.ack .pda 0xBD).admissible Enables.all = true
    ∧ (Instr.hMisaligned (.read 0x003)).wf = true ∧ (Instr.hUnmapped (.read 0xFFC)).wf = true := by decide +kernel

theorem test_wit_EncodeAfterDecode :
    decode Enables.all (.rx [0x10, 0x02, 0x40, 0xBE, 0x10, 0x00, 0x10, 0x03]) = .ok (.sqUnknown 0xBE [])
    ∧ decode Enables.all (.host (.read 0x7FF)) = .ok (.hMisaligned (.read 0x7FF)) := by decide

theorem test_wit_ChecksumFollowsOneByte : (0x00 : Byte) ≠ 0x80 := by decide

/-- A host access; a command in the latch; the trailer of a frame for no enabled unit. -/
theorem test_wit_StepRunsDecodedInstruction :
    (({ recv with schedule := [.host (.read 0x2FC)] } : State).schedule = .host (.read 0x2FC) :: []
      ∧ decode Enables.all (.host (.read 0x2FC)) = .ok (.hDispRdSq 63))
    ∧ ((Instr.sqWrite [0x00, 0x48]).wf = true ∧ (Instr.sqWrite [0x00, 0x48]).unit? = some .sq
      ∧ (Instr.sqWrite [0x00, 0x48]).message = .frame ⟨0x40, 0x04, [0x00, 0x48]⟩
      ∧ EngineNext (execSq 0x04 [0x00, 0x48]) [] ∧ (execSq 0x04 [0x00, 0x48]).ds = .exec
      ∧ (execSq 0x04 [0x00, 0x48]).fUnit = .sq ∧ (execSq 0x04 [0x00, 0x48]).fCmd = 0x04
      ∧ (execSq 0x04 [0x00, 0x48]).fArgs.take (execSq 0x04 [0x00, 0x48]).fNargs = [0x00, 0x48])
    ∧ (Consumes (pendingDle [0xFF, 0xFF, 0x10] [ETX]) ETX [] [] ∧ (pendingDle [0xFF, 0xFF, 0x10] [ETX]).ss = .accDle
      ∧ (pendingDle [0xFF, 0xFF, 0x10] [ETX]).cbuf.take (pendingDle [0xFF, 0xFF, 0x10] [ETX]).clen
          = [0xFF, 0xFF] ++ [] ++ [frameCs 0xFF 0xFF []]
      ∧ selects (pendingDle [0xFF, 0xFF, 0x10] [ETX]).ctrl 0xFF = none) := by
  refine ⟨⟨rfl, by decide⟩, ⟨by decide, by decide, by decide, rfl, rfl, rfl, rfl, by decide⟩,
    ⟨rfl, rfl, by decide, rfl⟩, rfl, by decide, by decide⟩

theorem test_wit_ResetInputRestoresResetState :
    ({ inTx with schedule := [.reset, .engine] } : State).schedule = .reset :: [.engine] := rfl

/-- The fields of a well-formed state, of a state about to send a reply's third character. -/
theorem test_wf_inTx : inTx.Wf where
  cbuf := by decide
  clen := by decide
  hunting := by decide
  busy := by decide
  stopped := by decide
  fifo := by decide
  txBuf := by decide
  noReply := by decide
  reply := fun _ => ⟨0x00, by decide, by decide⟩
  gapPos := by decide
  txPos := by decide
  driver := by decide
  args := by decide
  addressed := by decide
  gap := by decide
  sent := by decide
  sending := fun _ => ⟨[], by decide, by decide⟩
  sq := ⟨⟨by decide, by decide⟩, ⟨by decide, by decide⟩, by decide, by decide, by decide⟩
  pda := ⟨⟨by decide, by decide⟩, ⟨by decide, by decide⟩, by decide, by decide, by decide⟩
  spa := ⟨by decide, by decide, by decide⟩

/-- The rows of the displays of every test state. -/
theorem test_grids : GridWf 12 recv.sq.disp ∧ GridWf 10 recv.pda.disp :=
  ⟨⟨by decide, by decide⟩, ⟨by decide, by decide⟩⟩

/-- A reset long before the reply's last character. -/
theorem test_wit_ResetCutsTheReply :
    let s : State := { inTx with schedule := [.reset] }
    s.Wf ∧ s.ds = .tx ∧ s.schedule = .reset :: [] ∧ s.now < s.txT0 + (wireOf s.fUnit 0x00).length * byteNs s.par :=
  ⟨⟨test_wf_inTx.cbuf, test_wf_inTx.clen, test_wf_inTx.hunting, test_wf_inTx.busy, test_wf_inTx.stopped, test_wf_inTx.fifo,
    test_wf_inTx.txBuf, test_wf_inTx.noReply, test_wf_inTx.reply, test_wf_inTx.gapPos, test_wf_inTx.txPos,
    test_wf_inTx.driver, test_wf_inTx.args, test_wf_inTx.addressed, test_wf_inTx.gap, test_wf_inTx.sent,
    test_wf_inTx.sending, test_wf_inTx.sq, test_wf_inTx.pda, test_wf_inTx.spa⟩, rfl, rfl, by decide⟩

/-- It steps: for EveryStepKeepsWellFormed and OnlyRepliesAreSent, whose third case it is. -/
theorem test_wit_EveryStepKeepsWellFormed : inTx.Wf ∧ step inTx = .next (stepped inTx) := ⟨test_wf_inTx, rfl⟩

theorem test_wit_OnlyRepliesAreSent :
    inTx.Wf ∧ step inTx = .next (stepped inTx) ∧ (stepped inTx).lineOut ≠ inTx.lineOut := ⟨test_wf_inTx, rfl, by decide⟩

theorem test_wit_DisplayGeometryNeverChanges :
    GridWf 12 (execSq 0x09 []).sq.disp ∧ GridWf 10 (execSq 0x09 []).pda.disp
    ∧ step (execSq 0x09 []) = .next (stepped (execSq 0x09 [])) := ⟨test_grids.1, test_grids.2, rfl⟩

/-- A step that records a fault, and one that records none. -/
theorem test_wit_StepRecordsAtMostOneFault :
    (pendingDle [0x40, 0x00] [0x03]).nextMove ≠ .reset
    ∧ step (pendingDle [0x40, 0x00] [0x03]) = .next (stepped (pendingDle [0x40, 0x00] [0x03]))
    ∧ inTx.nextMove ≠ .reset ∧ step inTx = .next (stepped inTx) := ⟨by decide, rfl, by decide, rfl⟩

/-- The next move delivers this character. -/
def arriving (v : Byte) (err : Bool) (s : State) : State := { s with schedule := [.line v err] }

/-- Stopped, driving, a line error, a full FIFO, and one free place. -/
theorem test_wit_ArrivalOfCharacter :
    ((arriving 0x41 false State.reset).schedule = .line 0x41 false :: [] ∧ (arriving 0x41 false State.reset).ds = .stopped)
    ∧ ((arriving 0x41 true inTx).schedule = .line 0x41 true :: [] ∧ (arriving 0x41 true inTx).de = true)
    ∧ ((arriving 0x41 true recv).schedule = .line 0x41 true :: [] ∧ (arriving 0x41 true recv).de = false)
    ∧ ((arriving 0x41 false { recv with rxFifo := [1, 2] }).schedule = .line 0x41 false :: []
      ∧ (arriving 0x41 false { recv with rxFifo := [1, 2] }).rxFifo.length = testPar.rxFifoDepth)
    ∧ ((arriving 0x41 false { recv with rxFifo := [1] }).schedule = .line 0x41 false :: []
      ∧ (arriving 0x41 false { recv with rxFifo := [1] }).rxFifo.length ≠ testPar.rxFifoDepth) := by
  refine ⟨⟨rfl, rfl⟩, ⟨rfl, rfl⟩, ⟨rfl, rfl⟩, ⟨rfl, by decide⟩, rfl, by decide⟩

/-- The synchronizer in state `x` with `n` content bytes, about to consume `b`. -/
def consuming (x : SyncState) (n : Nat) (b : Byte) : State :=
  { recv with ss := x, clen := n, rxFifo := [b], schedule := [.engine] }

theorem consuming_consumes (x : SyncState) (n : Nat) (b : Byte) : Consumes (consuming x n b) b [] [] :=
  ⟨rfl, rfl, by show (0xF#4).getLsbD 0 = true; decide, rfl⟩

theorem test_wit_ByteWhileHunting :
    (Consumes (consuming .hunt 0 0x10) 0x10 [] [] ∧ (consuming .hunt 0 0x10).ss = .hunt)
    ∧ (Consumes (consuming .hunt 0 0x02) 0x02 [] [] ∧ (consuming .hunt 0 0x02).ss = .hunt)
    ∧ (Consumes (consuming .huntDle 0 0x02) 0x02 [] [] ∧ (consuming .huntDle 0 0x02).ss = .huntDle)
    ∧ (Consumes (consuming .huntDle 0 0x10) 0x10 [] [] ∧ (consuming .huntDle 0 0x10).ss = .huntDle) :=
  ⟨⟨consuming_consumes .., rfl⟩, ⟨consuming_consumes .., rfl⟩, ⟨consuming_consumes .., rfl⟩, consuming_consumes .., rfl⟩

/-- A `DLE`, the 124th content byte and the 125th. -/
theorem test_wit_ByteInAcc :
    (Consumes (consuming .acc 124 0x10) 0x10 [] [] ∧ (consuming .acc 124 0x10).ss = .acc)
    ∧ (Consumes (consuming .acc 123 0x41) 0x41 [] [] ∧ (consuming .acc 123 0x41).clen ≠ 124)
    ∧ (Consumes (consuming .acc 124 0x41) 0x41 [] [] ∧ (consuming .acc 124 0x41).clen = 124) :=
  ⟨⟨consuming_consumes .., rfl⟩, ⟨consuming_consumes .., by decide⟩, consuming_consumes .., rfl⟩

/-- A filler with room and without, and each of the other bytes. -/
theorem test_wit_ByteInAccDle :
    (Consumes (consuming .accDle 123 0x00) 0x00 [] [] ∧ (consuming .accDle 123 0x00).ss = .accDle ∧ (0x00 : Byte) ≠ 0x03)
    ∧ (Consumes (consuming .accDle 124 0x00) 0x00 [] [] ∧ (consuming .accDle 124 0x00).clen = 124)
    ∧ (Consumes (consuming .accDle 1 0x02) 0x02 [] [] ∧ (0x02 : Byte) ≠ 0x03)
    ∧ (Consumes (consuming .accDle 1 0x10) 0x10 [] [] ∧ (0x10 : Byte) ≠ 0x03)
    ∧ (Consumes (consuming .accDle 1 0x04) 0x04 [] [] ∧ (0x04 : Byte) ≠ 0x03) :=
  ⟨⟨consuming_consumes .., rfl, by decide⟩, ⟨consuming_consumes .., rfl⟩, ⟨consuming_consumes .., by decide⟩,
    ⟨consuming_consumes .., by decide⟩, consuming_consumes .., by decide⟩

/-- Two content bytes; three with a wrong sum; three with the right one, for each enabled unit, and for the PDA unit while
only the bits of the other two are set. -/
theorem test_wit_ValidationAtTrailer :
    (Consumes (pendingDle [0x40, 0x00] [0x03]) 0x03 [] [] ∧ (pendingDle [0x40, 0x00] [0x03]).clen < 3
      ∧ (pendingDle [0x40, 0x00] [0x03]).cbuf.length = 124)
    ∧ (Consumes (pendingDle [0x40, 0x00, 0x53] [0x03]) 0x03 [] [] ∧ 3 ≤ (pendingDle [0x40, 0x00, 0x53] [0x03]).clen
      ∧ (pendingDle [0x40, 0x00, 0x53] [0x03]).clen ≤ 124 ∧ (0x53 : Byte) ≠ frameCs 0x40 0x00 [])
    ∧ (Consumes (pendingDle [0x40, 0x00, 0x52] [0x03]) 0x03 [] [] ∧ (pendingDle [0x40, 0x00, 0x52] [0x03]).ss = .accDle
      ∧ (0x52 : Byte) = frameCs 0x40 0x00 [] ∧ selects (pendingDle [0x40, 0x00, 0x52] [0x03]).ctrl 0x40 = some .sq)
    ∧ (selects 0x2 0x40 = some .sq ∧ selects 0x4 0x60 = some .pda ∧ selects 0x8 0x20 = some .spa
      ∧ selects 0xB 0x60 = none) := by
  refine ⟨⟨⟨rfl, rfl, by decide, rfl⟩, by decide, by decide +kernel⟩,
    ⟨⟨rfl, rfl, by decide, rfl⟩, by decide, by decide, by decide⟩,
    ⟨⟨rfl, rfl, by decide, rfl⟩, rfl, by decide, by decide⟩, by decide, by decide, by decide, by decide⟩

/-- The encoding of a frame in the FIFO, the synchronizer in state `x` with a content begun. -/
def encoded (x : SyncState) (d c : Byte) (a : List Byte) : State :=
  { recv with
    ss := x, clen := 5, rxFifo := encodeFrame d c a
    schedule := List.replicate (encodeFrame d c a).length .engine ++ [.time 7] }

/-- The shortest frame while hunting, and the longest, every byte escaped, in the middle of another. -/
theorem test_wit_SynchronizerRecoversEncodedFrame :
    (([] : List Byte).length ≤ 121 ∧ (encoded .hunt 0x40 0x00 []).cbuf.length = 124
      ∧ (encoded .hunt 0x40 0x00 []).fArgs.length = 121 ∧ (encoded .hunt 0x40 0x00 []).ds = .recv
      ∧ (encoded .hunt 0x40 0x00 []).ctrl.getLsbD 0 = true
      ∧ (encoded .hunt 0x40 0x00 []).rxFifo = encodeFrame 0x40 0x00 []
      ∧ (encoded .hunt 0x40 0x00 []).schedule = List.replicate (encodeFrame 0x40 0x00 []).length .engine ++ [.time 7])
    ∧ ((List.replicate 121 (0x10 : Byte)).length ≤ 121
      ∧ (encoded .accDle 0xFF 0x10 (List.replicate 121 0x10)).cbuf.length = 124
      ∧ (encoded .accDle 0xFF 0x10 (List.replicate 121 0x10)).fArgs.length = 121) := by
  refine ⟨⟨by decide, by decide +kernel, by decide +kernel, rfl, by decide, rfl, rfl⟩, by simp, by decide +kernel, by decide +kernel⟩

theorem test_wit_OnlyValidFramesReachExec :
    (pendingDle [0x40, 0x00, 0x52] [0x03]).cbuf.length = 124 ∧ (pendingDle [0x40, 0x00, 0x52] [0x03]).clen ≤ 124
    ∧ step (pendingDle [0x40, 0x00, 0x52] [0x03]) = .next (stepped (pendingDle [0x40, 0x00, 0x52] [0x03]))
    ∧ (pendingDle [0x40, 0x00, 0x52] [0x03]).ds ≠ .exec
    ∧ (stepped (pendingDle [0x40, 0x00, 0x52] [0x03])).ds = .exec := by
  refine ⟨by decide +kernel, by decide, step_stepped _ (by decide +kernel), by decide, by decide +kernel⟩

/-- A step changes `DS`. -/
def Changes (s : State) : Prop := step s = .next (stepped s) ∧ (stepped s).ds ≠ s.ds

/-- Each row of the transition table changes `DS` from some state; so does the reset input. -/
theorem test_wit_DispatchStateTransitions :
    Changes { recv with ds := .stopped, schedule := [.engine] } ∧ Changes (pendingDle [0x40, 0x00, 0x52] [0x03])
    ∧ Changes { recv with ctrl := 0, schedule := [.engine] } ∧ Changes (execSq 0x00 [])
    ∧ Changes inGap ∧ Changes { inGap with ctrl := 0xE }
    ∧ Changes { inTx with txPos := 9, now := 13375003 } ∧ Changes { inTx with schedule := [.reset] } := by
  refine ⟨?_, ?_, ?_, ?_, ?_, ?_, ?_, ?_⟩ <;> exact ⟨step_stepped _ (by decide +kernel), by decide +kernel⟩

theorem test_wit_StartStep :
    EngineNext { State.reset with ctrl := 1, schedule := [.engine] } []
    ∧ ({ State.reset with ctrl := 1, schedule := [.engine] } : State).ds = .stopped
    ∧ ({ State.reset with ctrl := 1, schedule := [.engine] } : State).ctrl.getLsbD 0 = true := by
  refine ⟨rfl, rfl, by decide⟩

theorem test_wit_StopStep :
    (EngineNext { inGap with ctrl := 0xE } [] ∧ ({ inGap with ctrl := 0xE } : State).ds = .gap
      ∧ ({ inGap with ctrl := 0xE } : State).ctrl.getLsbD 0 = false)
    ∧ (EngineNext { recv with ctrl := 0, schedule := [.engine] } []
      ∧ ({ recv with ctrl := 0, schedule := [.engine] } : State).ds = .recv
      ∧ ({ recv with ctrl := 0, schedule := [.engine] } : State).ctrl.getLsbD 0 = false) := by
  refine ⟨⟨rfl, rfl, by decide⟩, rfl, rfl, by decide⟩

/-- The gap is over exactly now. -/
theorem test_wit_ReplyStartStep :
    EngineNext inGap [] ∧ inGap.ds = .gap ∧ inGap.ctrl.getLsbD 0 = true ∧ inGap.tRef + 4000000 ≤ inGap.now := by
  refine ⟨rfl, rfl, by decide, by decide⟩

theorem test_wit_CharacterStep :
    (EngineNext inTx [] ∧ inTx.ds = .tx ∧ inTx.txPos < inTx.txLen ∧ inTx.txBuf[inTx.txPos]? = some 0x00)
    ∧ (({ inTx with txPos := 8 } : State).txPos < inTx.txLen ∧ inTx.txBuf[8]? = some 0x03) := by
  refine ⟨⟨rfl, rfl, by decide, by decide⟩, by decide, by decide⟩

/-- The last character ends exactly now. -/
theorem test_wit_ReplyEndStep :
    let s : State := { inTx with txPos := 9, now := 13375003 }
    EngineNext s [] ∧ s.ds = .tx ∧ s.txPos = s.txLen ∧ s.txT0 + s.txLen * byteNs s.par ≤ s.now := by
  refine ⟨rfl, rfl, rfl, by decide⟩

theorem test_wit_DriverOnExactlyInTx :
    ((inTx.de = true ↔ inTx.ds = .tx) ∧ (inTx.reN = true ↔ inTx.ds = .tx) ∧ step inTx = .next (stepped inTx))
    ∧ ((inGap.de = true ↔ inGap.ds = .tx) ∧ (inGap.reN = true ↔ inGap.ds = .tx) ∧ step inGap = .next (stepped inGap))
    ∧ ((arriving 0x41 false inTx).ds = .tx ∧ (arriving 0x41 false inTx).schedule = .line 0x41 false :: []) := by
  refine ⟨⟨by decide, by decide, step_stepped _ (by decide +kernel)⟩, ⟨by decide, by decide, step_stepped _ (by decide +kernel)⟩, rfl, rfl⟩

/-- The whole reply of unit SQ, the waits at their shortest. -/
theorem test_wit_AddressedFrameGetsOneReply :
    let s : State := { execSq 0x00 [] with
      schedule := [.engine, .time 4000000, .engine] ++ List.replicate 9 .engine ++ [.time 9375003, .engine] ++ [] }
    s.ds = .exec ∧ s.ctrl.getLsbD 0 = true ∧ s.tRef + 4000000 ≤ s.now + 4000000
    ∧ (encodeFrame 0x00 0x01 [s.fUnit.ackByte, s.pending s.fUnit]).length = 9 ∧ 9 * byteNs s.par ≤ 9375003 := by
  refine ⟨rfl, by decide, by decide, by decide, by decide⟩

theorem test_wit_EveryCommandRepliesOnce :
    (Instr.sqUnknown 0x01 []).unit? = some .sq ∧ (Instr.pdaScroll []).unit? = some .pda
    ∧ (Instr.spaTstatus []).unit? = some .spa := by decide

theorem test_wit_UnknownCommandsAreAcknowledged :
    (0x01 : Byte) ∉ [0x00, 0x02, 0x04, 0x05, 0x08, 0x09, 0x0F, 0x10]
    ∧ (0x11 : Byte) ∉ [0x00, 0x02, 0x04, 0x05, 0x08, 0x09, 0x0F, 0x10]
    ∧ (0x05 : Byte) ∉ [0x00, 0x02, 0x03, 0x09] := by decide

theorem test_wit_StatusStoresArguments :
    ([] : List Byte).length ≤ 121 ∧ (List.replicate 121 (0x41 : Byte)).length ≤ 121 := by simp

/-- On SQ the last row and the first beyond it; on PDA the four kinds of row, the last plain one and the first beyond. -/
theorem test_wit_WriteLine :
    (GridWf 12 recv.sq.disp ∧ (0x0B : Byte).toNat < 12 ∧ 12 ≤ (0x0C : Byte).toNat)
    ∧ GridWf 10 recv.pda.disp
    ∧ ((0x40 : Byte) = 64 ∧ 0 = 0) ∧ ((0x82 : Byte) = 130 ∧ 2 = 2)
    ∧ ((0x09 : Byte) ≠ 64 ∧ (0x09 : Byte) ≠ 130 ∧ 9 = (0x09 : Byte).toNat ∧ 9 < 10)
    ∧ ((0x0A : Byte) ≠ 64 ∧ (0x0A : Byte) ≠ 130 ∧ 10 ≤ (0x0A : Byte).toNat) :=
  ⟨⟨test_grids.1, by decide⟩, test_grids.2, by decide⟩

/-- The whole of each display, and a single row. -/
theorem test_wit_ScrollRegion_moves :
    (GridWf 12 recv.sq.disp ∧ (0x00 : Byte).toNat < (0x0C : Byte).toNat ∧ (0x0C : Byte).toNat ≤ 12)
    ∧ (GridWf 10 recv.pda.disp ∧ (0x09 : Byte).toNat < (0x0A : Byte).toNat ∧ (0x0A : Byte).toNat ≤ 10) :=
  ⟨⟨test_grids.1, by decide⟩, test_grids.2, by decide⟩

/-- A direction that is none; two arguments; an empty region; a region past the last row. -/
theorem test_wit_ScrollRegion_refuses :
    ((0x00 : Byte) ≠ 0x01 ∧ (0x00 : Byte) ≠ 0xFF ∧ (0xFE : Byte) ≠ 0x01 ∧ (0xFE : Byte) ≠ 0xFF)
    ∧ ScrollFaults 12 [0, 5] ∧ ScrollFaults 12 [5, 5, 0xFF] ∧ ScrollFaults 12 [0, 13, 0x01]
    ∧ ScrollFaults 10 [] ∧ ScrollFaults 10 [0, 11, 0xFF] :=
  ⟨by decide, .inl (by decide), .inr ⟨5, 5, 0xFF, [], by decide⟩, .inr ⟨0, 13, 0x01, [], by decide⟩,
    .inl (by decide), .inr ⟨0, 11, 0xFF, [], by decide⟩⟩

theorem test_wit_InvertLine :
    (0x0B : Byte).toNat < 12 ∧ 12 ≤ (0x0C : Byte).toNat ∧ (0x09 : Byte).toNat < 10 ∧ 10 ≤ (0x0A : Byte).toNat := by decide

/-- The last line with the full width; two arguments; a line past the last; no column; a column past the last. -/
theorem test_wit_InvertRange :
    ((0x00 : Byte).toNat < (0x10 : Byte).toNat ∧ (0x10 : Byte).toNat ≤ 16 ∧ (0x0B : Byte).toNat < 12 ∧ (0x09 : Byte).toNat < 10)
    ∧ RangeFaults 12 [1, 2] ∧ RangeFaults 12 [12, 0, 16] ∧ RangeFaults 12 [0, 5, 5] ∧ RangeFaults 12 [0, 3, 17]
    ∧ RangeFaults 10 [10, 0, 16] :=
  ⟨by decide, .inl (by decide), .inr ⟨12, 0, 16, [], by decide⟩, .inr ⟨0, 5, 5, [], by decide⟩,
    .inr ⟨0, 3, 17, [], by decide⟩, .inr ⟨10, 0, 16, [], by decide⟩⟩

/-- A pattern that does not stand there. -/
theorem not_matches (args : List Byte) (off : Nat) (pat : List Byte) (h : matchAt args off pat = false) :
    ¬ Matches args off pat := fun m => by
  rw [(matchAt_iff args off pat).mpr m] at h
  exact Bool.noConfusion h

/-- The conditions of the clauses of `TextStatusDecodes` that come after the power-off pattern and the length: whether
the markers stand at their offsets. -/
def marks (a : List Byte) : Bool × Bool × Bool :=
  (matchAt a recv.par.spaSetOff recv.par.spaSetMark.bytes, matchAt a recv.par.spaAirOff recv.par.spaAirMark.bytes,
    matchAt a recv.par.spaH2oOff recv.par.spaH2oMark.bytes)

/-- The arguments reach the markers: no power-off pattern, a text of three bytes that is not "0FF". -/
def ReachesMarks (a : List Byte) (x y z : Byte) : Prop :=
  ¬ Matches a recv.par.spaPwroffOff [0x20, 0x2E, 0x20, 0x2E, 0x20, 0x2E] ∧ Matches a recv.par.spaTxtOff [x, y, z]
    ∧ [x, y, z] ≠ [0x30, 0x46, 0x46]

theorem reaches (a : List Byte) (x y z : Byte)
    (h : matchAt a recv.par.spaPwroffOff pwrOff = false ∧ matchAt a recv.par.spaTxtOff [x, y, z] = true
      ∧ [x, y, z] ≠ [0x30, 0x46, 0x46]) : ReachesMarks a x y z :=
  ⟨not_matches _ _ _ h.1, (matchAt_iff _ _ _).1 h.2.1, h.2.2⟩

/-- Every branch of the text status with all its conditions, under the values of `testPar`: power off; too short by one
byte; "0FF"; SET, with AIR there too; AIR, with H2O there too; H2O; and no marker. -/
theorem test_wit_TextStatusDecodes :
    Matches [0x61, 0x62, 0x63, 0x20, 0x2E, 0x20, 0x2E, 0x20, 0x2E] recv.par.spaPwroffOff [0x20, 0x2E, 0x20, 0x2E, 0x20, 0x2E]
    ∧ (¬ Matches [0x31, 0x30] recv.par.spaPwroffOff [0x20, 0x2E, 0x20, 0x2E, 0x20, 0x2E] ∧ [0x31, 0x30].length < recv.par.spaTxtOff + 3)
    ∧ (¬ Matches [0x30, 0x46, 0x46] recv.par.spaPwroffOff [0x20, 0x2E, 0x20, 0x2E, 0x20, 0x2E]
      ∧ Matches [0x30, 0x46, 0x46] recv.par.spaTxtOff [0x30, 0x46, 0x46])
    ∧ (ReachesMarks [0x31, 0x30, 0x32, 0, 0, 0, 0, 0, 0, 0x53, 0x41] 0x31 0x30 0x32
      ∧ marks [0x31, 0x30, 0x32, 0, 0, 0, 0, 0, 0, 0x53, 0x41] = (true, true, false))
    ∧ (ReachesMarks [0x31, 0x30, 0x32, 0, 0, 0, 0, 0, 0, 0, 0x41, 0x48] 0x31 0x30 0x32
      ∧ marks [0x31, 0x30, 0x32, 0, 0, 0, 0, 0, 0, 0, 0x41, 0x48] = (false, true, true))
    ∧ (ReachesMarks [0x31, 0x30, 0x32, 0, 0, 0, 0, 0, 0, 0, 0, 0x48] 0x31 0x30 0x32
      ∧ marks [0x31, 0x30, 0x32, 0, 0, 0, 0, 0, 0, 0, 0, 0x48] = (false, false, true))
    ∧ (ReachesMarks [0x31, 0x30, 0x32] 0x31 0x30 0x32 ∧ marks [0x31, 0x30, 0x32] = (false, false, false)) := by
  refine ⟨⟨[0x61, 0x62, 0x63], [], by decide, by decide⟩, ⟨not_matches _ _ _ (by decide), by decide⟩,
    ⟨not_matches _ _ _ (by decide), [], [], by decide, by decide⟩, ⟨reaches _ _ _ _ (by decide), by decide⟩,
    ⟨reaches _ _ _ _ (by decide), by decide⟩, ⟨reaches _ _ _ _ (by decide), by decide⟩,
    reaches _ _ _ _ (by decide), by decide⟩

theorem test_wit_GlobalRegisterWrites : 0 < 12 ∧ 11 < 12 := by decide

/-- The last key and the first index beyond it, for each map; bits above 3 do not count. -/
theorem test_wit_KeyWriteSetsPending :
    (0x15 : Word).toNat % 16 < 6 ∧ 6 ≤ (0x06 : Word).toNat % 16 ∧ (0xFFFFFFF8 : Word).toNat % 16 < 9
    ∧ 9 ≤ (0x09 : Word).toNat % 16 := by decide

/-- The last word of each window and its address, and lengths at their largest. -/
theorem test_wit_WindowReads :
    GridWf 12 recv.sq.disp ∧ GridWf 10 recv.pda.disp ∧ recv.sq.kstat.length = 121 ∧ recv.pda.kstat.length = 121
    ∧ recv.spa.text.length = 7 ∧ 3 < 4
    ∧ (0x2FC : HostAddr).toNat = 0x200 + 4 * (63 : BitVec 6).toNat ∧ (0x5FC : HostAddr).toNat = 0x500 + 4 * (63 : BitVec 6).toNat
    ∧ (0x1FC : HostAddr).toNat = 0x180 + 4 * (31 : BitVec 5).toNat ∧ (0x4FC : HostAddr).toNat = 0x480 + 4 * (31 : BitVec 5).toNat
    ∧ (0x724 : HostAddr).toNat = 0x720 + 4 * (1 : BitVec 1).toNat
    ∧ ({ recv.sq with kstatLen := 121 } : Keypad).kstatLen ≤ 121 ∧ ({ recv.pda with kstatLen := 121 } : Keypad).kstatLen ≤ 121
    ∧ ({ recv.spa with textLen := 7 } : Spa).textLen ≤ 7 := ⟨test_grids.1, test_grids.2, by decide⟩

theorem test_wit_MisalignedAccessFaults :
    (HostAccess.read 0x001).addr.toNat % 4 ≠ 0 ∧ (HostAccess.write 0xFFF 0).addr.toNat % 4 ≠ 0 := by decide

theorem test_wit_UnmappedAccessIsQuiet :
    ((0x040 : HostAddr).toNat % 4 = 0 ∧ readMapped 0x040 = false) ∧ ((0x17C : HostAddr).toNat % 4 = 0 ∧ readMapped 0x17C = false)
    ∧ ((0x728 : HostAddr).toNat % 4 = 0 ∧ readMapped 0x728 = false)
    ∧ ((0x004 : HostAddr).toNat % 4 = 0 ∧ (0x004 : HostAddr).toNat ≠ 0x000 ∧ (0x004 : HostAddr).toNat ≠ 0x008
      ∧ (0x004 : HostAddr).toNat ≠ 0x100 ∧ (0x004 : HostAddr).toNat ≠ 0x400 ∧ (0x004 : HostAddr).toNat ≠ 0x700) := by decide

theorem test_wit_OnlyThreeWritesHaveEffects :
    ((0xFFC : HostAddr).toNat % 4 = 0
      ∧ ({ recv with schedule := [.host (.read 0xFFC)] } : State).schedule = .host (.read 0xFFC) :: [])
    ∧ ((0x004 : HostAddr).toNat % 4 = 0 ∧ (0x004 : HostAddr).toNat ≠ 0x000 ∧ (0x004 : HostAddr).toNat ≠ 0x008
      ∧ (0x004 : HostAddr).toNat ≠ 0x100 ∧ (0x004 : HostAddr).toNat ≠ 0x400 ∧ (0x004 : HostAddr).toNat ≠ 0x700
      ∧ ({ recv with schedule := [.host (.write 0x004 1)] } : State).schedule = .host (.write 0x004 1) :: []) := by
  refine ⟨⟨by decide, rfl⟩, by decide, by decide, by decide, by decide, by decide, by decide, rfl⟩

/-- A key write to PDA. -/
def keyToPda : State := { recv with schedule := [.host (.write 0x400 3)] }

theorem test_wit_StorageWrittenOnlyByExec :
    step keyToPda = .next (stepped keyToPda) ∧ keyToPda.nextMove ≠ .reset ∧ ¬ ExecNext keyToPda
    ∧ (∀ v, keyToPda.nextMove ≠ .host (.write 0x100 v)) ∧ (∀ v, keyToPda.nextMove ≠ .host (.write 0x700 v))
    ∧ (∀ v, inTx.nextMove ≠ .host (.write 0x400 v)) := by
  refine ⟨rfl, by decide, by decide, ?_, ?_, ?_⟩ <;> intro v h <;> simp [State.nextMove, keyToPda, inTx, inGap] at h

theorem test_wit_SequenceCountsExecSteps :
    (step (execSq 0x00 []) = .next (stepped (execSq 0x00 [])) ∧ (execSq 0x00 []).nextMove ≠ .reset
      ∧ ExecNext (execSq 0x00 []) ∧ (execSq 0x00 []).fUnit = .sq)
    ∧ ¬ (ExecNext (execSq 0x00 []) ∧ (execSq 0x00 []).fUnit = .pda) := by
  refine ⟨⟨rfl, by decide, by decide, rfl⟩, by decide⟩

/-- Two steps that leave every `SEQ_u` as it is. -/
theorem test_wit_SameSequenceSameSnapshot :
    let s : State := { recv with schedule := [.host (.write 0x100 3), .line 0x10 false] }
    let t : State := stepped (stepped s)
    2 < 4294967296 ∧ Move.reset ∉ s.schedule ∧ Host.Core.run core 2 s = .next t ∧ t.seq .sq = s.seq .sq
    ∧ t.seq .pda = s.seq .pda ∧ t.seq .spa = s.seq .spa := by
  refine ⟨by decide, by decide, rfl, rfl, rfl, rfl⟩

/-- From each of the three states, with every unit enabled and with none. -/
theorem test_wit_EnablesAreSampledAtDispatch :
    (EngineNext (execSq 0x00 []) [] ∧ (execSq 0x00 []).ds = .exec ∧ (1#4).getLsbD 0 = (execSq 0x00 []).ctrl.getLsbD 0
      ∧ step (execSq 0x00 []) = .next (stepped (execSq 0x00 [])))
    ∧ (EngineNext inGap [] ∧ inGap.ds = .gap ∧ (1#4).getLsbD 0 = inGap.ctrl.getLsbD 0 ∧ step inGap = .next (stepped inGap))
    ∧ (EngineNext inTx [] ∧ inTx.ds = .tx ∧ (1#4).getLsbD 0 = inTx.ctrl.getLsbD 0 ∧ step inTx = .next (stepped inTx)) := by
  refine ⟨⟨rfl, rfl, by decide, ?_⟩, ⟨rfl, rfl, by decide, ?_⟩, rfl, rfl, by decide, ?_⟩ <;>
    exact step_stepped _ (by decide +kernel)

theorem test_wit_LastKeyWriteWins : (0x05 : Word).toNat % 16 < 6 ∧ (Instr.sqInvline []).unit? = some .sq := by decide

end Sys2Proof.Tests
end

section
/-! What a step does to the units, said once: it resets them, it is the EXEC step and runs the latched command, or it
leaves all their storage. -/

namespace Sys2Proof.Machine

open Sys2Proof.Spec

/-! ### Storage and the operations outside EXEC steps (20_memory R87) -/

theorem seq_eq_of_storage_eq {s t : State} (h : storage t = storage s) (u : UnitId) : t.seq u = s.seq u := by
  simp only [storage, Prod.mk.injEq, Keypad.mk.injEq, Spa.mk.injEq] at h
  obtain ⟨⟨-, -, -, -, -, hsq⟩, ⟨-, -, -, -, -, hpda⟩, -, -, -, -, hspa⟩ := h
  cases u
  · exact hsq
  · exact hpda
  · exact hspa

theorem disp_eq_of_storage_eq {s t : State} (h : storage t = storage s) (k : KeypadId) :
    (t.keypad k).disp = (s.keypad k).disp := by
  simp only [storage, Prod.mk.injEq, Keypad.mk.injEq, Spa.mk.injEq] at h
  obtain ⟨⟨hsq, -⟩, ⟨hpda, -⟩, -⟩ := h
  cases k
  · exact hsq
  · exact hpda

@[simp] theorem storage_setPending (u : UnitId) (p : Byte) (s : State) : storage (setPending u p s) = storage s := by
  cases u <;> rfl

theorem storage_arrive (v : Byte) (err : Bool) (s : State) : storage (arrive v err s) = storage s := by
  rcases arrive_cases v err s with e | ⟨-, -, c, x, e⟩ | ⟨-, -, -, e⟩ <;> rw [e] <;> rfl

theorem storage_consume (b : Byte) (s : State) : storage (consume b s).1 = storage s := by
  rcases consume_cases b s with ⟨m, e, -⟩ | e | ⟨-, x, e⟩ | ⟨c, x, m, -, e⟩ | ⟨-, -, -, -, e⟩ <;> rw [e] <;> rfl

theorem storage_consumeStep (b : Byte) (s t : State) (h : consumeStep b s = .next t) : storage t = storage s := by
  rcases consumeStep_cases b s t h with ⟨rfl, -⟩ | ⟨-, ⟨u, -, rfl⟩ | ⟨-, rfl⟩⟩
  all_goals exact storage_consume b s

theorem storage_access (acc : HostAccess) (s t : State) (h : exec (accessInstr acc) s = .next t) :
    storage t = storage s := by
  rcases access_cases acc s t h with ⟨v, rfl⟩ | rfl | ⟨x, rfl⟩ | ⟨x, rfl⟩ | ⟨v, rfl⟩ | ⟨v, rfl⟩ | ⟨u, p, v, -, rfl⟩
  case inr.inr.inr.inr.inr.inr => exact storage_setPending u p s
  all_goals rfl

theorem storage_engineStep (s t : State) (hd : s.ds ≠ .exec) (h : engineStep s = .next t) : storage t = storage s := by
  rcases engineStep_cases s t h with rfl | ⟨-, -, rfl⟩ | ⟨-, -, b, rest, -, hb⟩ | ⟨-, -, rfl⟩ | ⟨hx, -⟩ |
    ⟨-, -, -, rfl⟩ | ⟨-, -, rfl⟩ | ⟨-, -, -, rfl⟩
  case inr.inr.inl => exact storage_consumeStep b { s with rxFifo := rest } t hb
  case inr.inr.inr.inr.inl => exact absurd hx hd
  all_goals rfl

/-- What a step does to the units. -/
theorem step_units {s t : State} (h : step s = .next t) :
    (s.nextMove = .reset ∧ t = applyReset s.popped)
    ∨ (ExecNext s ∧ exec s.popped.latched s.popped = .next t)
    ∨ (¬ ExecNext s ∧ storage t = storage s) := by
  rcases step_cases s t h with ⟨v, err, hm, rfl⟩ | ⟨hm, he⟩ | ⟨acc, hm, ha⟩ | ⟨dt, hm, rfl⟩ | hr
  · exact .inr (.inr ⟨by simp [hm], storage_arrive v err s.popped⟩)
  · by_cases hd : s.ds = .exec
    · exact .inr (.inl ⟨⟨hm, hd⟩, by rwa [engineStep_exec s.popped hd] at he⟩)
    · exact .inr (.inr ⟨fun hx => hd hx.2, storage_engineStep s.popped t hd he⟩)
  · exact .inr (.inr ⟨by simp [hm], storage_access acc s.popped t ha⟩)
  · exact .inr (.inr ⟨by simp [hm], rfl⟩)
  · exact .inl hr

/-! ### The reset values of the units (10_state R52) -/

theorem seq_reset (u : UnitId) : State.reset.seq u = 0 := by
  cases u <;> rfl

/-- The cells of a blank display: a space in every row and column, and none past its edges. -/
theorem cell_replicate_blankRow (rows r c : Nat) :
    cell (List.replicate rows blankRow) r c = if r < rows ∧ c < 16 then some 0x20 else none := by
  by_cases hr : r < rows
  · simp only [cell, blankRow, Config.width, List.getElem?_replicate, hr, if_true, Option.bind_some, true_and]
  · simp [cell, hr]

/-! ### The geometry of a display (10_state R38, R53) -/

theorem gridWf_replicate_blankRow (rows : Nat) : GridWf rows (List.replicate rows blankRow) where
  height := List.length_replicate
  width _ hr := by rw [List.eq_of_mem_replicate hr]; rfl

theorem GridWf.set {rows : Nat} {d : List (List Byte)} (h : GridWf rows d) (n : Nat) {row : List Byte}
    (hrow : row.length = 16) : GridWf rows (d.set n row) where
  height := by rw [List.length_set, h.height]
  width r hr := by
    rcases List.mem_or_eq_of_mem_set hr with hr | rfl
    · exact h.width r hr
    · exact hrow

theorem GridWf.scrollDown {rows : Nat} {d : List (List Byte)} (h : GridWf rows d) {s e : Nat} (hs : s < e)
    (he : e ≤ rows) : GridWf rows (scrollDown d s e) where
  height := by rw [scrollDown_length d s e hs (h.height ▸ he), h.height]
  width r hr := by
    rcases scrollDown_mem d s e r hr with rfl | hr
    · rfl
    · exact h.width r hr

theorem GridWf.scrollUp {rows : Nat} {d : List (List Byte)} (h : GridWf rows d) {s e : Nat} (hs : s < e)
    (he : e ≤ rows) : GridWf rows (scrollUp d s e) where
  height := by rw [scrollUp_length d s e hs (h.height ▸ he), h.height]
  width r hr := by
    rcases scrollUp_mem d s e r hr with rfl | hr
    · rfl
    · exact h.width r hr

/-! ### The geometry of both displays -/

/-- Both keypad displays have the geometry of R38. -/
def DisplaysWf (s : State) : Prop := ∀ k : KeypadId, GridWf k.rows (s.keypad k).disp

theorem displaysWf_iff (s : State) : DisplaysWf s ↔ GridWf 12 s.sq.disp ∧ GridWf 10 s.pda.disp where
  mp h := ⟨h .sq, h .pda⟩
  mpr h
    | .sq => h.1
    | .pda => h.2

theorem displaysWf_reset : DisplaysWf State.reset := by
  intro k
  cases k <;> exact gridWf_replicate_blankRow _

theorem DisplaysWf.congr {s t : State} (h : DisplaysWf s) (e : ∀ k, (t.keypad k).disp = (s.keypad k).disp) :
    DisplaysWf t :=
  fun k => (e k).symm ▸ h k

theorem DisplaysWf.setKeypad {s : State} (h : DisplaysWf s) (k : KeypadId) {x : Keypad} (hx : GridWf k.rows x.disp) :
    DisplaysWf (setKeypad k x s) := by
  intro j
  cases k <;> cases j
  · exact hx
  · exact h .pda
  · exact h .sq
  · exact hx

theorem DisplaysWf.argFault {s : State} (h : DisplaysWf s) : DisplaysWf (argFault s) :=
  h.congr fun k => by cases k <;> rfl

theorem DisplaysWf.countUnknown {s : State} (h : DisplaysWf s) : DisplaysWf (countUnknown s) :=
  h.congr fun k => by cases k <;> rfl

theorem DisplaysWf.finishCommand {s : State} (h : DisplaysWf s) (u : UnitId) : DisplaysWf (finishCommand u s) :=
  h.congr fun k => by cases u <;> cases k <;> rfl

theorem DisplaysWf.spaEffect {s r : State} (h : DisplaysWf s) (he : CommandEffect .spa s r) : DisplaysWf r :=
  (displaysWf_iff r).2 ⟨he.sq (by decide) ▸ h .sq, he.pda (by decide) ▸ h .pda⟩

/-! ### Every command keeps the geometry (42_keypad R143 to R151) -/

theorem DisplaysWf.keypadStatus {s : State} (h : DisplaysWf s) (k : KeypadId) (args : List Byte) :
    DisplaysWf (keypadStatus k args s) :=
  h.setKeypad k (h k)

theorem DisplaysWf.keypadClear {s : State} (h : DisplaysWf s) (k : KeypadId) : DisplaysWf (keypadClear k s) :=
  h.setKeypad k (gridWf_replicate_blankRow k.rows)

theorem DisplaysWf.keypadWrite {s : State} (h : DisplaysWf s) (k : KeypadId) (args : List Byte) :
    DisplaysWf (keypadWrite k args s) := by
  cases args with
  | nil => exact h.argFault
  | cons row text =>
    by_cases hr : (rowMap k row).toNat < k.rows
    · rw [keypadWrite_of_lt k row text s hr]
      exact h.setKeypad k ((h k).set _ (lineRow_length text))
    · rw [keypadWrite_of_ge k row text s (Nat.le_of_not_lt hr)]
      exact h.argFault

theorem DisplaysWf.keypadInvline {s : State} (h : DisplaysWf s) (k : KeypadId) (args : List Byte) :
    DisplaysWf (keypadInvline k args s) := by
  cases args with
  | nil => exact h.argFault
  | cons l rest =>
    by_cases hl : l.toNat < k.rows
    · rw [keypadInvline_of_lt k l rest s hl]
      exact h.setKeypad k (h k)
    · rw [keypadInvline_of_ge k l rest s (Nat.le_of_not_lt hl)]
      exact h.argFault

/-- The region test of R144 is what keeps a scroll inside the display. -/
theorem DisplaysWf.keypadScroll {s : State} (h : DisplaysWf s) (k : KeypadId) (args : List Byte) :
    DisplaysWf (keypadScroll k args s) := by
  match args with
  | [] | [_] | [_, _] => exact h.argFault
  | st :: en :: d :: rest =>
    by_cases hd : d = 0x01 ∨ d = 0xFF
    · by_cases hreg : st.toNat < en.toNat ∧ en.toNat ≤ k.rows
      · obtain ⟨hlt, hle⟩ := hreg
        rcases hd with rfl | rfl
        · rw [keypadScroll_down k st en rest s hlt hle]
          exact h.setKeypad k ((h k).scrollDown hlt hle)
        · rw [keypadScroll_up k st en rest s hlt hle]
          exact h.setKeypad k ((h k).scrollUp hlt hle)
      · rw [keypadScroll_bad k st en d rest s hd hreg]
        exact h.argFault
    · obtain ⟨h1, h2⟩ := not_or.1 hd
      rwa [keypadScroll_other k st en d rest s h1 h2]

theorem DisplaysWf.keypadInvrange {s : State} (h : DisplaysWf s) (k : KeypadId) (args : List Byte) :
    DisplaysWf (keypadInvrange k args s) := by
  match args with
  | [] | [_] | [_, _] => exact h.argFault
  | l :: st :: en :: rest =>
    by_cases hbad : k.rows ≤ l.toNat ∨ ¬ (st.toNat < en.toNat ∧ en.toNat ≤ 16)
    · rw [keypadInvrange_bad k l st en rest s hbad]
      exact h.argFault
    · simp only [not_or, not_not, Nat.not_le] at hbad
      obtain ⟨hl, hlt, hle⟩ := hbad
      rw [keypadInvrange_ok k l st en rest s hl hlt hle]
      exact h.setKeypad k (h k)

/-- What every command of a unit does before the end of its EXEC step keeps the geometry. -/
theorem DisplaysWf.command {s : State} (h : DisplaysWf s) (i : Instr) (u : UnitId) (hi : i.unit? = some u) :
    ∃ r, exec i s = .next (Machine.finishCommand u r) ∧ DisplaysWf r := by
  cases i <;> simp only [Instr.unit?, reduceCtorEq, Option.some.injEq] at hi <;> subst hi
  case sqProbe | sqHandshake | pdaProbe | pdaHandshake | spaProbe | spaChreq => exact ⟨s, rfl, h⟩
  case sqUnknown | pdaUnknown | spaUnknown => exact ⟨_, rfl, h.countUnknown⟩
  case sqStatus args => exact ⟨_, rfl, h.keypadStatus .sq args⟩
  case pdaStatus args => exact ⟨_, rfl, h.keypadStatus .pda args⟩
  case sqWrite args => exact ⟨_, rfl, h.keypadWrite .sq args⟩
  case pdaWrite args => exact ⟨_, rfl, h.keypadWrite .pda args⟩
  case sqInvline args => exact ⟨_, rfl, h.keypadInvline .sq args⟩
  case pdaInvline args => exact ⟨_, rfl, h.keypadInvline .pda args⟩
  case sqClear => exact ⟨_, rfl, h.keypadClear .sq⟩
  case pdaClear => exact ⟨_, rfl, h.keypadClear .pda⟩
  case sqScroll args => exact ⟨_, rfl, h.keypadScroll .sq args⟩
  case pdaScroll args => exact ⟨_, rfl, h.keypadScroll .pda args⟩
  case sqInvrange args => exact ⟨_, rfl, h.keypadInvrange .sq args⟩
  case pdaInvrange args => exact ⟨_, rfl, h.keypadInvrange .pda args⟩
  case spaBstatus args => exact ⟨_, rfl, h.spaEffect (effect_spaBstatus args s)⟩
  case spaTstatus args => exact ⟨_, rfl, h.spaEffect (effect_spaTstatus args s)⟩

theorem DisplaysWf.exec_command {s t : State} (h : DisplaysWf s) (i : Instr) (u : UnitId) (hi : i.unit? = some u)
    (he : exec i s = .next t) : DisplaysWf t := by
  obtain ⟨r, hr, hwf⟩ := h.command i u hi
  cases hr.symm.trans he
  exact hwf.finishCommand u

theorem DisplaysWf.step {s t : State} (h : DisplaysWf s) (hst : step s = .next t) : DisplaysWf t := by
  rcases step_units hst with ⟨-, rfl⟩ | ⟨-, he⟩ | ⟨-, hstore⟩
  · exact displaysWf_reset
  · have hp : DisplaysWf s.popped := h
    exact hp.exec_command s.popped.latched s.fUnit (commandOf_unit _ _ _) he
  · exact h.congr (disp_eq_of_storage_eq hstore)

/-! ### The statements -/

/-- Settles O14: the geometry holds at reset, and every step keeps it. -/
theorem displayGeometryNeverChanges : Obligations.DisplayGeometryNeverChanges := by
  refine ⟨(displaysWf_iff _).1 displaysWf_reset, fun s t h hst => ?_⟩
  exact (displaysWf_iff t).1 (((displaysWf_iff s).2 h).step hst)

/-- The EXEC step adds 1 to the `SEQ` of the latched unit, and leaves that of the others. -/
theorem seq_exec_latched {s t : State} (h : exec s.latched s = .next t) (u : UnitId) :
    t.seq u = if s.fUnit = u then s.seq u + 1 else s.seq u := by
  obtain ⟨r, hr, heff⟩ := exec_command s.latched s.fUnit s (commandOf_unit _ _ _)
  cases hr.symm.trans h
  split
  · next hu => subst hu; rw [seq_finishCommand, heff.seq]
  · next hu => rw [seq_finishCommand_of_ne _ _ (Ne.symm hu), heff.seq]

/-- Settles O54, by what a step does to the units. -/
theorem sequenceCountsExecSteps : Obligations.SequenceCountsExecSteps := by
  refine ⟨seq_reset, fun s t u hst hm => ?_⟩
  have hpop : s.popped.seq u = s.seq u := by cases u <;> rfl
  rcases step_units hst with ⟨hr, -⟩ | ⟨hx, he⟩ | ⟨hx, hstore⟩
  · exact absurd hr hm
  · have hseq : t.seq u = if s.fUnit = u then s.seq u + 1 else s.seq u := hpop ▸ seq_exec_latched he u
    exact ⟨fun h => hseq.trans (if_pos h.2), fun h => hseq.trans (if_neg fun hu => h ⟨hx, hu⟩)⟩
  · exact ⟨fun h => absurd h.1 hx, fun _ => seq_eq_of_storage_eq hstore u⟩

/-- `STATUS` reads 0 at reset: STOPPED, HUNT and empty buffers (10_state R33, R51). -/
theorem statusImage_reset : State.reset.statusImage = 0 := by decide

/-- Settles O10: the display cells and `STATUS` by their lemmas, every other piece is a field of the reset state. -/
theorem resetLeavesSpecValues : Obligations.ResetLeavesSpecValues := by
  have hstatus : exec .hStatusRd State.reset = .next { State.reset with hostRdata := 0 } := by
    rw [exec_hStatusRd, statusImage_reset]
    rfl
  have hsq := cell_replicate_blankRow 12
  have hpda := cell_replicate_blankRow 10
  exact ⟨rfl, rfl, rfl, rfl, rfl, rfl, rfl, rfl, rfl, rfl, rfl, rfl, rfl, hstatus, hsq, hpda, rfl, rfl, rfl, rfl, rfl, rfl,
    rfl, rfl, rfl, rfl, rfl, rfl, rfl, rfl, rfl⟩

end Sys2Proof.Machine
end

section
/-! The host's memory (20_memory): what a misaligned, a reading and an ignored access do, said once, and the pending bytes
through the steps that are no EXEC step. -/

namespace Sys2Proof.Machine

open Sys2Proof.Spec

/-! ### Alignment (20_memory R72) -/

/-- The decoder's alignment test, on the two low bits, is the spec's. -/
theorem extractLsb'_low_two_eq_zero_iff (a : HostAddr) : a.extractLsb' 0 2 = 0 ↔ a.toNat % 4 = 0 := by
  simp [← BitVec.toNat_inj]

theorem accessInstr_misaligned (acc : HostAccess) (h : acc.addr.toNat % 4 ≠ 0) : accessInstr acc = .hMisaligned acc :=
  if_pos (mt (extractLsb'_low_two_eq_zero_iff acc.addr).1 h)

/-- A HOST_ACCESS fault in the numbers of 60_exceptions R222: its code, its counter and its event bit. -/
theorem raiseFault_hostAccess (x : BitVec 16) (s : State) :
    raiseFault .hostAccess x s = { s with
      lastErr := ⟨8, x⟩, cnt := { s.cnt with errHost := s.cnt.errHost + 1 }, events := s.events ||| 0x010#12 } := rfl

@[simp] theorem returnZero_read (a : HostAddr) (s : State) : returnZero (.read a) s = hostReturn 0 s := rfl

@[simp] theorem returnZero_write (a : HostAddr) (v : Word) (s : State) : returnZero (.write a v) s = s := rfl

/-- Settles O50: the first row of R104 takes every misaligned access, and its fault is the whole of its effect. -/
theorem misalignedAccessFaults : Obligations.MisalignedAccessFaults := by
  refine ⟨fun en acc h => congrArg Except.ok (accessInstr_misaligned acc h), fun s a v => ⟨?_, ?_⟩⟩
  · rw [exec_hMisaligned, returnZero_read, raiseFault_hostAccess]
    rfl
  · rw [exec_hMisaligned, returnZero_write, raiseFault_hostAccess]
    rfl

/-! ### Aligned accesses (20_memory R78) -/

theorem exec_read_of_aligned (a : HostAddr) (s : State) (ha : a.toNat % 4 = 0) :
    ∃ v, exec (accessInstr (.read a)) s = .next (hostReturn v s) := by
  rcases accessInstr_cases (.read a) with ⟨hmis, -⟩ | ⟨-, e⟩ | ⟨-, r, hr, ht, e⟩
  · exact absurd ((extractLsb'_low_two_eq_zero_iff a).2 ha) hmis
  · exact ⟨0, by rw [e, exec_hUnmapped, returnZero_read]⟩
  · obtain ⟨f, hf⟩ := read_rows r hr a ht
    exact ⟨f s, by rw [e, hf]⟩

theorem accessInstr_write_unmapped (a : HostAddr) (v : Word) (ha : a.toNat % 4 = 0) (hw : writeMapped a = false) :
    accessInstr (.write a v) = .hUnmapped (.write a v) := by
  rcases accessInstr_cases (.write a v) with ⟨hmis, -⟩ | ⟨-, e⟩ | ⟨-, r, hr, ht, -⟩
  · exact absurd ((extractLsb'_low_two_eq_zero_iff a).2 ha) hmis
  · exact e
  · rcases write_rows r hr a v ht with ⟨rfl, -⟩ | ⟨rfl, -⟩ | ⟨rfl, -⟩ | ⟨rfl, -⟩ | ⟨rfl, -⟩ <;> cases hw

/-- Settles O52: a read row returns a value, and a write that no row takes is the unmapped one. -/
theorem onlyThreeWritesHaveEffects : Obligations.OnlyThreeWritesHaveEffects := by
  refine fun s a rest ha => ⟨fun hs => ?_, fun v h0 h8 h100 h400 h700 hs => ?_⟩
  · obtain ⟨v, hv⟩ := exec_read_of_aligned a { s with schedule := rest } ha
    exact ⟨v, (step_cons s _ rest hs).trans hv⟩
  · have hw : writeMapped a = false := by simp [writeMapped, h0, h8, h100, h400, h700]
    rw [step_cons s _ rest hs, runMove, accessInstr_write_unmapped a v ha hw, exec_hUnmapped, returnZero_write]

/-! ### The pending bytes outside EXEC steps (20_memory R87) -/

theorem pending_setPending_of_ne {u v : UnitId} (h : v ≠ u) (p : Byte) (s : State) :
    (setPending u p s).pending v = s.pending v := by
  cases u <;> cases v
  case sq.sq | pda.pda | spa.spa => exact absurd rfl h
  all_goals rfl

theorem pending_arrive (v : Byte) (err : Bool) (s : State) : (arrive v err s).pending = s.pending := by
  rcases arrive_cases v err s with e | ⟨-, -, c, x, e⟩ | ⟨-, -, -, e⟩ <;> rw [e] <;> rfl

theorem pending_consume (b : Byte) (s : State) : (consume b s).1.pending = s.pending := by
  rcases consume_cases b s with ⟨m, e, -⟩ | e | ⟨-, x, e⟩ | ⟨c, x, m, -, e⟩ | ⟨-, -, -, -, e⟩ <;> rw [e] <;> rfl

theorem pending_consumeStep (b : Byte) (s t : State) (h : consumeStep b s = .next t) : t.pending = s.pending := by
  rcases consumeStep_cases b s t h with ⟨rfl, -⟩ | ⟨-, ⟨u, -, rfl⟩ | ⟨-, rfl⟩⟩
  all_goals exact pending_consume b s

theorem pending_engineStep (s t : State) (hd : s.ds ≠ .exec) (h : engineStep s = .next t) : t.pending = s.pending := by
  rcases engineStep_cases s t h with rfl | ⟨-, -, rfl⟩ | ⟨-, -, b, rest, -, hb⟩ | ⟨-, -, rfl⟩ | ⟨hx, -⟩ |
    ⟨-, -, -, rfl⟩ | ⟨-, -, rfl⟩ | ⟨-, -, -, rfl⟩
  case inr.inr.inl => exact pending_consumeStep b { s with rxFifo := rest } t hb
  case inr.inr.inr.inr.inl => exact absurd hx hd
  all_goals rfl

/-- A host access leaves the pending byte of a unit unless it writes that unit's KEY register. -/
theorem pending_access (u : UnitId) (acc : HostAccess) (s t : State) (hk : ∀ v, acc ≠ .write (keyAddr u) v)
    (h : exec (accessInstr acc) s = .next t) : t.pending u = s.pending u := by
  rcases access_cases acc s t h with ⟨v, rfl⟩ | rfl | ⟨x, rfl⟩ | ⟨x, rfl⟩ | ⟨v, rfl⟩ | ⟨v, rfl⟩ | ⟨w, p, v, ha, rfl⟩
  case inr.inr.inr.inr.inr.inr => exact pending_setPending_of_ne (fun e => hk v (by rw [ha, e])) p s
  all_goals rfl

/-- A step that is neither the reset nor an EXEC step leaves the pending byte of a unit unless it is a host write to that
unit's KEY register. -/
theorem pending_step {s t : State} (u : UnitId) (h : step s = .next t) (hr : s.nextMove ≠ .reset) (hx : ¬ ExecNext s)
    (hk : ∀ v, s.nextMove ≠ .host (.write (keyAddr u) v)) : t.pending u = s.pending u := by
  rcases step_cases s t h with ⟨v, err, -, rfl⟩ | ⟨hm, he⟩ | ⟨acc, hm, ha⟩ | ⟨dt, -, rfl⟩ | ⟨hm, -⟩
  · exact congrFun (pending_arrive v err s.popped) u
  · exact congrFun (pending_engineStep s.popped t (fun hd => hx ⟨hm, hd⟩) he) u
  · exact pending_access u acc s.popped t (fun v e => hk v (hm.trans (congrArg Move.host e))) ha
  · rfl
  · exact absurd hm hr

/-- Settles O53, by what a step does to the units (`step_units`) and to their pending bytes (`pending_step`). -/
theorem storageWrittenOnlyByExec : Obligations.StorageWrittenOnlyByExec := by
  intro s t h hr hx
  have hstore : storage t = storage s := by
    rcases step_units h with ⟨hm, -⟩ | ⟨he, -⟩ | ⟨-, e⟩
    · exact absurd hm hr
    · exact absurd he hx
    · exact e
  exact ⟨hstore, pending_step .sq h hr hx, pending_step .pda h hr hx, pending_step .spa h hr hx⟩

end Sys2Proof.Machine
end

section
/-! The family `30_encoding.md`: the checksum field of a frame. -/

namespace Sys2Proof

/-- The header `DLE STX` adds 0x10 + 0x02 = 0x12 to the sum of the other unstuffed bytes of a frame (30_encoding R93). -/
theorem sum_frame_toNat (d c : Byte) (a : List Byte) :
    (([DLE, STX, d, c] ++ a).map BitVec.toNat).sum = 0x12 + d.toNat + c.toNat + (a.map BitVec.toNat).sum := by
  have header : DLE.toNat + STX.toNat = 0x12 := rfl
  simp only [List.cons_append, List.nil_append, List.map_cons, List.sum_cons]
  omega

/-- Settles O6: the checksum is the exact sum modulo 256 (`checksum_toNat`), of which the header is 0x12. -/
theorem frameChecksumIsSum : Obligations.FrameChecksumIsSum := by
  intro d c a
  rw [frameCs, checksum_toNat, sum_frame_toNat]

end Sys2Proof
end

section
/-! The family `41_busreader.md`: the arrival of a character, and the byte synchronizer outside ACC_DLE. -/

namespace Sys2Proof.Machine

open Sys2Proof.Spec

/-! ### The arrival of a character, case by case (41_busreader R121) -/

theorem arrive_of_not_listening (v : Byte) (err : Bool) (s : State) (h : s.ds = .stopped ∨ s.de = true) :
    arrive v err s = s :=
  if_pos h

theorem arrive_line_error (v : Byte) (s : State) (h : ¬ (s.ds = .stopped ∨ s.de = true)) :
    arrive v true s = raiseFault .line (v.setWidth 16) s := by
  rw [arrive, if_neg h, if_pos rfl]

theorem arrive_overrun (v : Byte) (s : State) (h : ¬ (s.ds = .stopped ∨ s.de = true))
    (hfull : s.rxFifo.length = s.par.rxFifoDepth) :
    arrive v false s = raiseFault .overrun (v.setWidth 16) s := by
  rw [arrive, if_neg h, if_neg Bool.false_ne_true, if_pos hfull]

theorem arrive_of_room (v : Byte) (s : State) (h : ¬ (s.ds = .stopped ∨ s.de = true))
    (hroom : s.rxFifo.length ≠ s.par.rxFifoDepth) :
    arrive v false s = { s with rxFifo := s.rxFifo ++ [v] } := by
  rw [arrive, if_neg h, if_neg Bool.false_ne_true, if_neg hroom]

/-! ### The faults of the receive path, in the numbers of 60_exceptions R222 -/

theorem raiseFault_line (x : BitVec 16) (s : State) :
    raiseFault .line x s = { s with
      lastErr := ⟨5, x⟩, cnt := { s.cnt with errLine := s.cnt.errLine + 1 }, events := s.events ||| 0x002#12 } := rfl

theorem raiseFault_overrun (x : BitVec 16) (s : State) :
    raiseFault .overrun x s = { s with
      lastErr := ⟨6, x⟩, cnt := { s.cnt with errOverrun := s.cnt.errOverrun + 1 }, events := s.events ||| 0x004#12 } := rfl

theorem raiseFault_oversize (x : BitVec 16) (s : State) :
    raiseFault .oversize x s = { s with
      lastErr := ⟨3, x⟩, cnt := { s.cnt with errOversize := s.cnt.errOversize + 1 }, events := s.events ||| 0x001#12 } := rfl

/-- Settles O17, by the four cases of `arrive`, on the state from which the move is taken. -/
theorem arrivalOfCharacter : Obligations.ArrivalOfCharacter := by
  intro s v err rest hs
  rw [step_cons s _ rest hs, runMove]
  refine congrArg Host.Outcome.next ?_
  split
  · next hdeaf => exact arrive_of_not_listening v err _ hdeaf
  · next hlisten =>
    cases err with
    | true => rw [if_pos rfl, arrive_line_error v { s with schedule := rest } hlisten, raiseFault_line]
    | false =>
      rw [if_neg Bool.false_ne_true]
      split
      · next hfull => rw [arrive_overrun v { s with schedule := rest } hlisten hfull, raiseFault_overrun]
      · next hroom => exact arrive_of_room v _ hlisten hroom

/-! ### The consumption of a byte (41_busreader R123) -/

theorem step_of_consumes {s : State} {b : Byte} {fifo : List Byte} {rest : List Move} (h : Consumes s b fifo rest) :
    step s = consumeStep b (afterByte s fifo rest) := by
  rw [step_cons s .engine rest h.next]
  exact engineStep_recv { s with schedule := rest } b fifo h.ds h.en h.fifo

/-- A byte that validates no frame does to the state what the synchronizer does with it: no frame is dispatched. -/
theorem step_of_consume_eq {s t : State} {b : Byte} {fifo : List Byte} {rest : List Move} (h : Consumes s b fifo rest)
    (hc : consume b (afterByte s fifo rest) = (t, false)) : step s = .next t := by
  rw [step_of_consumes h, consumeStep, hc]
  exact if_neg Bool.false_ne_true

/-- Settles O18, by the equations of the synchronizer in HUNT and in HUNT_DLE. -/
theorem byteWhileHunting : Obligations.ByteWhileHunting := by
  intro s b fifo rest h
  refine ⟨fun hs => step_of_consume_eq h (consume_hunt b _ hs), fun hs => ?_⟩
  split
  · next hb =>
    subst hb
    exact step_of_consume_eq h (consume_huntDle_stx _ hs)
  · next hb => exact step_of_consume_eq h (consume_huntDle_of_ne b _ hs hb)

/-! ### `Store` (41_busreader R127) -/

/-- Only the length 124 is refused, so this asks less than `store_of_lt`. -/
theorem store_of_ne (x : Byte) (s : State) (h : s.clen ≠ 124) :
    store x s = { s with cbuf := s.cbuf.set s.clen x, clen := s.clen + 1, ss := .acc } :=
  if_neg h

/-- Settles O19: a `DLE` is marked, and what `Store` does with any other byte turns on whether CBUF is full. -/
theorem byteInAcc : Obligations.ByteInAcc := by
  intro s b fifo rest h hs
  split
  · next hb =>
    subst hb
    exact step_of_consume_eq h (consume_acc_dle _ hs)
  · next hb =>
    rw [step_of_consume_eq h (consume_acc_of_ne b _ hs hb)]
    split
    · next hfull =>
      rw [store_full b (afterByte s fifo rest) hfull, raiseFault_oversize]
      rfl
    · next hroom => exact congrArg Host.Outcome.next (store_of_ne b (afterByte s fifo rest) hroom)

end Sys2Proof.Machine
end

section
/-! The keypad commands (42_keypad) of both keypads, tied to the words of the statements: each shared operation is
proved once for a keypad `k`, and each statement reads it for SQ and for PDA. -/

namespace Sys2Proof.Machine

open Sys2Proof.Spec

/-! ### The end of an EXEC step and the recorded events, field by field -/

theorem mask_cmdEvent_sq : (cmdEvent .sq).mask = 0x100#12 := by decide

theorem mask_cmdEvent_pda : (cmdEvent .pda).mask = 0x200#12 := by decide

theorem mask_cmdEvent_spa : (cmdEvent .spa).mask = 0x400#12 := by decide

theorem finishCommand_eq_ackedSq (s : State) : finishCommand .sq s = ackedSq s := by
  simp only [finishCommand, setEvent, reply, encodeReply, mask_cmdEvent_sq]
  rfl

theorem finishCommand_eq_ackedPda (s : State) : finishCommand .pda s = ackedPda s := by
  simp only [finishCommand, setEvent, reply, encodeReply, mask_cmdEvent_pda]
  rfl

theorem finishCommand_eq_ackedSpa (s : State) : finishCommand .spa s = ackedSpa s := by
  simp only [finishCommand, setEvent, reply, encodeReply, mask_cmdEvent_spa]
  rfl

theorem argFault_eq_argFaulted (s : State) : argFault s = argFaulted s := rfl

theorem countUnknown_eq_unknownCounted (s : State) : countUnknown s = unknownCounted s := rfl

theorem blankRow_eq_blank : blankRow = blank := rfl

/-- A keypad's display replaced; `withSqDisp` and `withPdaDisp` are its two cases. -/
def setDisp (k : KeypadId) (d : List (List Byte)) (s : State) : State :=
  setKeypad k { s.keypad k with disp := d } s

theorem setDisp_sq (d : List (List Byte)) (s : State) : setDisp .sq d s = withSqDisp s d := rfl

theorem setDisp_pda (d : List (List Byte)) (s : State) : setDisp .pda d s = withPdaDisp s d := rfl

/-- The argument lists that R144 and R151 call too short. -/
theorem args_of_length_lt_three (args : List Byte) (h : args.length < 3) :
    args = [] ∨ (∃ a, args = [a]) ∨ ∃ a b, args = [a, b] := by
  rcases (by omega : args.length = 0 ∨ args.length = 1 ∨ args.length = 2) with h0 | h1 | h2
  · exact .inl (List.eq_nil_of_length_eq_zero h0)
  · exact .inr (.inl (List.length_eq_one_iff.1 h1))
  · exact .inr (.inr (List.length_eq_two.1 h2))

/-! ### The text of a row (R146, R147) -/

theorem rowWritten_set (d : List (List Byte)) (r : Nat) (t : List Byte) (h : r < d.length) :
    RowWritten d (d.set r (lineRow t)) r t := by
  obtain ⟨n, hlen, h16, hnz, hend, hrow⟩ := lineRow_spec t
  have htake : (t.take n).length = n := List.length_take_of_le hlen
  refine ⟨List.length_set, fun q hq => List.getElem?_set_ne (Ne.symm hq), n, hlen, h16, hnz, hend,
    lineRow t, List.getElem?_set_self h, lineRow_length t, fun c hc => ?_, fun c hn hc => ?_⟩
  · rw [hrow, List.getElem?_append_left (htake.symm ▸ hc), List.getElem?_take_of_lt hc]
  · rw [hrow, List.getElem?_append_right (htake.symm ▸ hn), htake, List.getElem?_replicate_of_lt (by omega)]

theorem rowMap_pda_of_ne (row : Byte) (h64 : row ≠ 64) (h130 : row ≠ 130) : rowMap .pda row = row := by
  rw [rowMap, if_neg h64, if_neg h130]

/-- The raw rows of PDA and the rows they mean (R147). -/
theorem rowMap_pda_toNat (row : Byte) (r : Nat)
    (h : (row = 64 ∧ r = 0) ∨ (row = 130 ∧ r = 2) ∨ (row ≠ 64 ∧ row ≠ 130 ∧ r = row.toNat ∧ r < 10)) :
    (rowMap .pda row).toNat = r ∧ r < KeypadId.pda.rows := by
  rcases h with ⟨rfl, rfl⟩ | ⟨rfl, rfl⟩ | ⟨h64, h130, rfl, hr⟩
  · decide
  · decide
  · exact ⟨congrArg BitVec.toNat (rowMap_pda_of_ne row h64 h130), hr⟩

theorem keypadWrite_rowWritten (k : KeypadId) (row : Byte) (text : List Byte) (s : State)
    (hg : GridWf k.rows (s.keypad k).disp) (hr : (rowMap k row).toNat < k.rows) :
    ∃ d, keypadWrite k (row :: text) s = setDisp k d s
      ∧ RowWritten (s.keypad k).disp d (rowMap k row).toNat text :=
  ⟨_, keypadWrite_of_lt k row text s hr, rowWritten_set _ _ _ (hg.height.symm ▸ hr)⟩

theorem keypadWrite_nil (k : KeypadId) (s : State) : keypadWrite k [] s = argFaulted s := rfl

/-- Settles O38: a row in the display, once mapped, holds the text; every other row is an argument fault. -/
theorem writeLine : Obligations.WriteLine := by
  refine ⟨fun args => ⟨rfl, rfl⟩, fun s hg => ⟨fun row text hr => ?_, fun row text hr => ?_, ?_⟩,
    fun s hg => ⟨fun row text r hrow => ?_, fun row text h64 h130 hr => ?_, ?_⟩⟩
  · obtain ⟨d, hd, hw⟩ := keypadWrite_rowWritten .sq row text s hg hr
    exact ⟨d, by rw [exec_sqWrite, hd, setDisp_sq, finishCommand_eq_ackedSq], hw⟩
  · rw [exec_sqWrite, keypadWrite_of_ge .sq row text s hr, argFault_eq_argFaulted, finishCommand_eq_ackedSq]
  · rw [exec_sqWrite, keypadWrite_nil, finishCommand_eq_ackedSq]
  · obtain ⟨hmap, hr⟩ := rowMap_pda_toNat row r hrow
    obtain ⟨d, hd, hw⟩ := keypadWrite_rowWritten .pda row text s hg (hmap.symm ▸ hr)
    exact ⟨d, by rw [exec_pdaWrite, hd, setDisp_pda, finishCommand_eq_ackedPda], hmap ▸ hw⟩
  · have hmap := rowMap_pda_of_ne row h64 h130
    rw [exec_pdaWrite, keypadWrite_of_ge .pda row text s (hmap.symm ▸ hr), argFault_eq_argFaulted,
      finishCommand_eq_ackedPda]
  · rw [exec_pdaWrite, keypadWrite_nil, finishCommand_eq_ackedPda]

/-! ### The rows of a scroll (R144) -/

/-- Where each row of a display scrolled down comes from: the parts `[0, s)`, `s`, `(s, e)` and `[e, ..)` in turn. -/
theorem getElem?_scrollDown (d : List (List Byte)) (s e r : Nat) (h : s < e) (he : e ≤ d.length) :
    (scrollDown d s e)[r]?
      = if r < s ∨ e ≤ r then d[r]? else if r = s then some blank else d[r - 1]? := by
  have hs : s ≤ d.length := by omega
  have hmid : e - s - 1 ≤ d.length - s := by omega
  have hlen : s + 1 + (e - s - 1) = e := by omega
  simp only [scrollDown, List.getElem?_append, List.length_append, List.length_singleton, List.length_take,
    List.length_drop, Nat.min_eq_left hs, Nat.min_eq_left hmid, hlen, List.getElem?_take, List.getElem?_drop,
    blankRow_eq_blank]
  rcases (by omega : r < s ∨ r = s ∨ (s < r ∧ r < e) ∨ e ≤ r) with hr | rfl | ⟨hsr, hre⟩ | hr
  · rw [if_pos (by omega), if_pos (by omega), if_pos hr, if_pos hr, if_pos (.inl hr)]
  · rw [if_pos h, if_pos (by omega), if_neg (by omega), if_neg (by omega), if_pos rfl, Nat.sub_self]
    rfl
  · rw [if_pos hre, if_neg (by omega), if_pos (by omega), if_neg (by omega), if_neg (by omega)]
    exact congrArg (d[·]?) (by omega)
  · rw [if_neg (by omega), if_pos (.inr hr), Nat.add_sub_cancel' hr]

/-- Where each row of a display scrolled up comes from: the parts `[0, s)`, `[s, e - 1)`, `e - 1` and `[e, ..)`
in turn. -/
theorem getElem?_scrollUp (d : List (List Byte)) (s e r : Nat) (h : s < e) (he : e ≤ d.length) :
    (scrollUp d s e)[r]?
      = if r < s ∨ e ≤ r then d[r]? else if r = e - 1 then some blank else d[r + 1]? := by
  have hs : s ≤ d.length := by omega
  have hmid : e - s - 1 ≤ d.length - (s + 1) := by omega
  have hlen : s + (e - s - 1) = e - 1 := by omega
  have hlen' : e - 1 + 1 = e := by omega
  simp only [scrollUp, List.getElem?_append, List.length_append, List.length_singleton, List.length_take,
    List.length_drop, Nat.min_eq_left hs, Nat.min_eq_left hmid, hlen, hlen', List.getElem?_take, List.getElem?_drop,
    blankRow_eq_blank]
  rcases (by omega : r < s ∨ (s ≤ r ∧ r < e - 1) ∨ r = e - 1 ∨ e ≤ r) with hr | ⟨hsr, hre⟩ | rfl | hr
  · rw [if_pos (by omega), if_pos (by omega), if_pos hr, if_pos hr, if_pos (.inl hr)]
  · rw [if_pos (by omega), if_pos hre, if_neg (by omega), if_pos (by omega), if_neg (by omega), if_neg (by omega)]
    exact congrArg (d[·]?) (by omega)
  · rw [if_pos (by omega), if_neg (by omega), if_neg (by omega), if_pos rfl, Nat.sub_self]
    rfl
  · rw [if_neg (by omega), if_pos (.inr hr), Nat.add_sub_cancel' hr]

theorem movedDown_scrollDown (d : List (List Byte)) (s e : Nat) (h : s < e) (he : e ≤ d.length) :
    MovedDown d (scrollDown d s e) s e := by
  refine ⟨scrollDown_length d s e h he, fun r hr => ?_, ?_, fun r hs hr => ?_⟩
  · rw [getElem?_scrollDown d s e r h he, if_pos hr]
  · rw [getElem?_scrollDown d s e s h he, if_neg (by omega), if_pos rfl]
  · rw [getElem?_scrollDown d s e r h he, if_neg (by omega), if_neg (by omega)]

theorem movedUp_scrollUp (d : List (List Byte)) (s e : Nat) (h : s < e) (he : e ≤ d.length) :
    MovedUp d (scrollUp d s e) s e := by
  refine ⟨scrollUp_length d s e h he, fun r hr => ?_, ?_, fun r hs hr => ?_⟩
  · rw [getElem?_scrollUp d s e r h he, if_pos hr]
  · rw [getElem?_scrollUp d s e (e - 1) h he, if_neg (by omega), if_pos rfl]
  · rw [getElem?_scrollUp d s e r h he, if_neg (by omega), if_neg (by omega)]

theorem keypadScroll_movedDown (k : KeypadId) (st en : Byte) (more : List Byte) (s : State)
    (hg : GridWf k.rows (s.keypad k).disp) (h : st.toNat < en.toNat) (he : en.toNat ≤ k.rows) :
    ∃ d, keypadScroll k (st :: en :: 0x01 :: more) s = setDisp k d s
      ∧ MovedDown (s.keypad k).disp d st.toNat en.toNat :=
  ⟨_, keypadScroll_down k st en more s h he, movedDown_scrollDown _ _ _ h (hg.height.symm ▸ he)⟩

theorem keypadScroll_movedUp (k : KeypadId) (st en : Byte) (more : List Byte) (s : State)
    (hg : GridWf k.rows (s.keypad k).disp) (h : st.toNat < en.toNat) (he : en.toNat ≤ k.rows) :
    ∃ d, keypadScroll k (st :: en :: 0xFF :: more) s = setDisp k d s
      ∧ MovedUp (s.keypad k).disp d st.toNat en.toNat :=
  ⟨_, keypadScroll_up k st en more s h he, movedUp_scrollUp _ _ _ h (hg.height.symm ▸ he)⟩

theorem keypadScroll_of_faults (k : KeypadId) (args : List Byte) (s : State) (h : ScrollFaults k.rows args) :
    keypadScroll k args s = argFaulted s := by
  rcases h with hlen | ⟨st, en, d, rest, rfl, hd, hregion⟩
  · rcases args_of_length_lt_three args hlen with rfl | ⟨a, rfl⟩ | ⟨a, b, rfl⟩ <;> rfl
  · exact keypadScroll_bad k st en d rest s hd hregion

/-- Settles O39: the two directions move the region, any other does nothing, and what R144 lists faults. -/
theorem scrollRegion : Obligations.ScrollRegion := by
  refine ⟨fun args => ⟨rfl, rfl⟩,
    fun s st en more h => ⟨fun hg he => ⟨?_, ?_⟩, fun hg he => ⟨?_, ?_⟩⟩,
    fun s st en d more h1 h2 => ⟨?_, ?_⟩, fun s args hf => ?_, fun s args hf => ?_⟩
  · obtain ⟨d, hd, hm⟩ := keypadScroll_movedDown .sq st en more s hg h he
    exact ⟨d, by rw [exec_sqScroll, hd, setDisp_sq, finishCommand_eq_ackedSq], hm⟩
  · obtain ⟨d, hd, hm⟩ := keypadScroll_movedUp .sq st en more s hg h he
    exact ⟨d, by rw [exec_sqScroll, hd, setDisp_sq, finishCommand_eq_ackedSq], hm⟩
  · obtain ⟨d, hd, hm⟩ := keypadScroll_movedDown .pda st en more s hg h he
    exact ⟨d, by rw [exec_pdaScroll, hd, setDisp_pda, finishCommand_eq_ackedPda], hm⟩
  · obtain ⟨d, hd, hm⟩ := keypadScroll_movedUp .pda st en more s hg h he
    exact ⟨d, by rw [exec_pdaScroll, hd, setDisp_pda, finishCommand_eq_ackedPda], hm⟩
  · rw [exec_sqScroll, keypadScroll_other .sq st en d more s h1 h2, finishCommand_eq_ackedSq]
  · rw [exec_pdaScroll, keypadScroll_other .pda st en d more s h1 h2, finishCommand_eq_ackedPda]
  · rw [exec_sqScroll, keypadScroll_of_faults .sq args s hf, finishCommand_eq_ackedSq]
  · rw [exec_pdaScroll, keypadScroll_of_faults .pda args s hf, finishCommand_eq_ackedPda]

/-! ### The commands without a display text -/

/-- Settles O34: these commands are the end of their EXEC step and nothing before it. -/
theorem ackOnlyCommands : Obligations.AckOnlyCommands := by
  refine fun args s => ⟨⟨rfl, rfl, rfl, rfl, rfl, rfl⟩, ?_, ?_, ?_, ?_, ?_, ?_⟩
  · rw [exec_sqProbe, finishCommand_eq_ackedSq]
  · rw [exec_sqHandshake, finishCommand_eq_ackedSq]
  · rw [exec_pdaProbe, finishCommand_eq_ackedPda]
  · rw [exec_pdaHandshake, finishCommand_eq_ackedPda]
  · rw [exec_spaProbe, finishCommand_eq_ackedSpa]
  · rw [exec_spaChreq, finishCommand_eq_ackedSpa]

/-- A command byte outside the list of R98 is an unknown command of either keypad. -/
theorem commandOf_keypad_unknown (cmd : Byte) (args : List Byte)
    (h : cmd ∉ [0x00, 0x02, 0x04, 0x05, 0x08, 0x09, 0x0F, 0x10]) :
    commandOf .sq cmd args = .sqUnknown cmd args ∧ commandOf .pda cmd args = .pdaUnknown cmd args := by
  simp only [List.mem_cons, List.not_mem_nil, or_false, not_or] at h
  obtain ⟨h00, h02, h04, h05, h08, h09, h0F, h10⟩ := h
  simp only [commandOf, sqCommand, pdaCommand, if_neg h00, if_neg h02, if_neg h04, if_neg h05, if_neg h08,
    if_neg h09, if_neg h0F, if_neg h10, and_self]

/-- A command byte outside the list of R98 is an unknown command of the spa unit. -/
theorem commandOf_spa_unknown (cmd : Byte) (args : List Byte) (h : cmd ∉ [0x00, 0x02, 0x03, 0x09]) :
    commandOf .spa cmd args = .spaUnknown cmd args := by
  simp only [List.mem_cons, List.not_mem_nil, or_false, not_or] at h
  obtain ⟨h00, h02, h03, h09⟩ := h
  simp only [commandOf, spaCommand, if_neg h00, if_neg h02, if_neg h03, if_neg h09]

/-- Settles O35, by the command map and the count of R152. -/
theorem unknownCommandsAreAcknowledged : Obligations.UnknownCommandsAreAcknowledged := by
  refine fun cmd args s => ⟨commandOf_keypad_unknown cmd args, commandOf_spa_unknown cmd args, ?_, ?_, ?_⟩
  · rw [exec_sqUnknown, countUnknown_eq_unknownCounted, finishCommand_eq_ackedSq]
  · rw [exec_pdaUnknown, countUnknown_eq_unknownCounted, finishCommand_eq_ackedPda]
  · rw [exec_spaUnknown, countUnknown_eq_unknownCounted, finishCommand_eq_ackedSpa]

theorem keypadClear_sq (s : State) :
    keypadClear .sq s = { s with sq := { s.sq with
      disp := [blank, blank, blank, blank, blank, blank, blank, blank, blank, blank, blank, blank],
      inv := ⟨false, 0, 0, 0⟩ } } := rfl

theorem keypadClear_pda (s : State) :
    keypadClear .pda s = { s with pda := { s.pda with
      disp := [blank, blank, blank, blank, blank, blank, blank, blank, blank, blank],
      inv := ⟨false, 0, 0, 0⟩ } } := rfl

/-- Settles O36: the argument bytes play no part in `keypadClear`. -/
theorem clearBlanksTheDisplay : Obligations.ClearBlanksTheDisplay := by
  refine fun args s => ⟨⟨rfl, rfl⟩, ?_, ?_⟩
  · rw [exec_sqClear, keypadClear_sq, finishCommand_eq_ackedSq]
  · rw [exec_pdaClear, keypadClear_pda, finishCommand_eq_ackedPda]

theorem keypadStatus_sq (args : List Byte) (s : State) :
    keypadStatus .sq args s = { s with sq := { s.sq with
      kstatLen := args.length, kstat := args ++ List.replicate (121 - args.length) 0x00 } } := rfl

theorem keypadStatus_pda (args : List Byte) (s : State) :
    keypadStatus .pda args s = { s with pda := { s.pda with
      kstatLen := args.length, kstat := args ++ List.replicate (121 - args.length) 0x00 } } := rfl

/-- Settles O37: the stored bytes are the arguments padded to the 121 of the window. -/
theorem statusStoresArguments : Obligations.StatusStoresArguments := by
  refine fun args s _ => ⟨⟨rfl, rfl⟩, ?_, ?_⟩
  · rw [exec_sqStatus, keypadStatus_sq, finishCommand_eq_ackedSq]
  · rw [exec_pdaStatus, keypadStatus_pda, finishCommand_eq_ackedPda]

/-! ### The inverted region (R150, R151) -/

theorem setKeypad_inv_sq (v : Inv) (s : State) :
    setKeypad .sq { s.keypad .sq with inv := v } s = { s with sq := { s.sq with inv := v } } := rfl

theorem setKeypad_inv_pda (v : Inv) (s : State) :
    setKeypad .pda { s.keypad .pda with inv := v } s = { s with pda := { s.pda with inv := v } } := rfl

theorem keypadInvline_nil (k : KeypadId) (s : State) : keypadInvline k [] s = argFaulted s := rfl

/-- Settles O40, by whether the line is in the display of the unit. -/
theorem invertLine : Obligations.InvertLine := by
  refine ⟨fun args => ⟨rfl, rfl⟩,
    fun s => ⟨fun l more => ⟨fun hl => ?_, fun hl => ?_, fun hl => ?_, fun hl => ?_⟩, ?_, ?_⟩⟩
  · rw [exec_sqInvline, keypadInvline_of_lt .sq l more s hl, setKeypad_inv_sq, finishCommand_eq_ackedSq]
  · rw [exec_sqInvline, keypadInvline_of_ge .sq l more s hl, argFault_eq_argFaulted, finishCommand_eq_ackedSq]
  · rw [exec_pdaInvline, keypadInvline_of_lt .pda l more s hl, setKeypad_inv_pda, finishCommand_eq_ackedPda]
  · rw [exec_pdaInvline, keypadInvline_of_ge .pda l more s hl, argFault_eq_argFaulted, finishCommand_eq_ackedPda]
  · rw [exec_sqInvline, keypadInvline_nil, finishCommand_eq_ackedSq]
  · rw [exec_pdaInvline, keypadInvline_nil, finishCommand_eq_ackedPda]

theorem keypadInvrange_of_faults (k : KeypadId) (args : List Byte) (s : State) (h : RangeFaults k.rows args) :
    keypadInvrange k args s = argFaulted s := by
  rcases h with hlen | ⟨l, st, en, rest, rfl, hbad⟩
  · rcases args_of_length_lt_three args hlen with rfl | ⟨a, rfl⟩ | ⟨a, b, rfl⟩ <;> rfl
  · exact keypadInvrange_bad k l st en rest s hbad

/-- Settles O41, by whether the arguments fault as R151 lists. -/
theorem invertRange : Obligations.InvertRange := by
  refine ⟨fun args => ⟨rfl, rfl⟩, fun s l st en more h he => ⟨fun hl => ?_, fun hl => ?_⟩,
    fun s args hf => ?_, fun s args hf => ?_⟩
  · rw [exec_sqInvrange, keypadInvrange_ok .sq l st en more s hl h he, setKeypad_inv_sq, finishCommand_eq_ackedSq]
  · rw [exec_pdaInvrange, keypadInvrange_ok .pda l st en more s hl h he, setKeypad_inv_pda, finishCommand_eq_ackedPda]
  · rw [exec_sqInvrange, keypadInvrange_of_faults .sq args s hf, finishCommand_eq_ackedSq]
  · rw [exec_pdaInvrange, keypadInvrange_of_faults .pda args s hf, finishCommand_eq_ackedPda]

end Sys2Proof.Machine
end

section
/-! The spa's binary status (43_spa R167). As in `finishCommand_eq_ackedSpa`, the model's functions are tied here to the
words of the statement: `maskStatus` to the three bits read one by one, `argFault` to `argFaulted`. -/

namespace Sys2Proof.Machine

open Sys2Proof.Spec

theorem maskStatus_eq_bits (m : Byte) :
    maskStatus m = ⟨if m.getLsbD 4 then .on else .off, if m.getLsbD 0 then .on else .off,
      if m.getLsbD 3 then .on else .off⟩ := rfl

@[simp] theorem spaBstatus_cons (m : Byte) (more : List Byte) (s : State) :
    spaBstatus (m :: more) s = { s with spa := { s.spa with st := maskStatus m } } := rfl

@[simp] theorem spaBstatus_nil (s : State) :
    spaBstatus [] s = argFaulted { s with spa := { s.spa with st := ⟨.unknown, .unknown, .unknown⟩ } } :=
  argFault_eq_argFaulted _

theorem commandOf_spa_bstatus (args : List Byte) : commandOf .spa 0x02 args = .spaBstatus args := rfl

/-- Settles O42, by whether the frame has an argument byte; the bytes after the mask play no part. -/
theorem binaryStatusDecodes : Obligations.BinaryStatusDecodes := by
  refine ⟨commandOf_spa_bstatus, fun s => ⟨fun m more => ?mask, ?noArgument⟩⟩
  case mask => rw [exec_spaBstatus, spaBstatus_cons, maskStatus_eq_bits, finishCommand_eq_ackedSpa]
  case noArgument => rw [exec_spaBstatus, spaBstatus_nil, finishCommand_eq_ackedSpa]

end Sys2Proof.Machine
end

section
/-! The family `44_dispatcher.md`: the start step, the driver through every step, and what every command does. -/

namespace Sys2Proof.Machine

open Sys2Proof.Spec

/-- Settles O25: with `CTRL.EN` set, ENGINE's step in STOPPED is the start step. -/
theorem startStep : Obligations.StartStep := by
  intro s rest hs hd he
  rw [step_cons s .engine rest hs, runMove, engineStep_start { s with schedule := rest } hd he]
  rfl

/-! ### The driver and `DS` outside ENGINE's steps (44_dispatcher R187) -/

/-- The registers that R187 ties together: `DS`, `DE` and `RE_N`. -/
def lineControl (s : State) : DispatchState × Bool × Bool := (s.ds, s.de, s.reN)

theorem lineControl_arrive (v : Byte) (err : Bool) (s : State) : lineControl (arrive v err s) = lineControl s := by
  rcases arrive_cases v err s with e | ⟨-, -, c, x, e⟩ | ⟨-, -, -, e⟩ <;> rw [e] <;> rfl

theorem lineControl_consume (b : Byte) (s : State) : lineControl (consume b s).1 = lineControl s := by
  rcases consume_cases b s with ⟨m, e, -⟩ | e | ⟨-, x, e⟩ | ⟨c, x, m, -, e⟩ | ⟨-, -, -, -, e⟩ <;> rw [e] <;> rfl

theorem lineControl_access (acc : HostAccess) (s t : State) (h : exec (accessInstr acc) s = .next t) :
    lineControl t = lineControl s := by
  rcases access_cases acc s t h with ⟨v, rfl⟩ | rfl | ⟨x, rfl⟩ | ⟨x, rfl⟩ | ⟨v, rfl⟩ | ⟨v, rfl⟩ | ⟨u, p, v, -, rfl⟩
  case inr.inr.inr.inr.inr.inr => simp only [lineControl, setPending_ds, setPending_de, setPending_reN]
  all_goals rfl

/-! ### The driver is on exactly in TX -/

/-- R187: the driver is enabled, and the receiver disabled, exactly in TX. -/
def DrivesInTx (s : State) : Prop := (s.de = true ↔ s.ds = .tx) ∧ (s.reN = true ↔ s.ds = .tx)

theorem drivesInTx_reset : DrivesInTx State.reset := by simp [DrivesInTx, State.reset]

theorem DrivesInTx.of_lineControl_eq {s t : State} (h : DrivesInTx s) (e : lineControl t = lineControl s) :
    DrivesInTx t := by
  simp only [lineControl, Prod.mk.injEq] at e
  obtain ⟨hds, hde, hre⟩ := e
  simpa only [DrivesInTx, hds, hde, hre] using h

/-- A step between two states outside TX may change `DS`, so long as it leaves the driver. -/
theorem DrivesInTx.of_outside_tx {s t : State} (h : DrivesInTx s) (hs : s.ds ≠ .tx) (ht : t.ds ≠ .tx)
    (hde : t.de = s.de) (hre : t.reN = s.reN) : DrivesInTx t := by
  simpa only [DrivesInTx, hde, hre, hs, ht] using h

theorem DrivesInTx.consumeStep {s t : State} (h : DrivesInTx s) (hs : s.ds ≠ .tx) (b : Byte)
    (hc : consumeStep b s = .next t) : DrivesInTx t := by
  have hcons : DrivesInTx (consume b s).1 := h.of_lineControl_eq (lineControl_consume b s)
  have hds : (consume b s).1.ds = s.ds := congrArg Prod.fst (lineControl_consume b s)
  rcases consumeStep_cases b s t hc with ⟨rfl, -⟩ | ⟨-, ⟨u, -, rfl⟩ | ⟨-, rfl⟩⟩
  · exact hcons
  · exact hcons.of_outside_tx (hds ▸ hs) DispatchState.noConfusion rfl rfl
  · exact hcons

/-- Only the reply start step enters TX and only the reply end step leaves it; each moves the driver with `DS`. -/
theorem DrivesInTx.engineStep {s t : State} (h : DrivesInTx s) (he : engineStep s = .next t) : DrivesInTx t := by
  rcases engineStep_cases s t he with rfl | ⟨hd, -, rfl⟩ | ⟨hd, -, b, rest, -, hb⟩ | ⟨hd, -, rfl⟩ | ⟨hd, r, heff, rfl⟩ |
    ⟨-, -, -, rfl⟩ | ⟨-, -, rfl⟩ | ⟨-, -, -, rfl⟩
  case inl => exact h
  case inr.inl => exact h.of_outside_tx (by simp [hd]) (by simp [startEngine]) rfl rfl
  case inr.inr.inl =>
    have hpop : DrivesInTx { s with rxFifo := rest } := h
    exact hpop.consumeStep (by simp [hd]) b hb
  case inr.inr.inr.inl =>
    exact h.of_outside_tx (by rcases hd with hd | hd <;> simp [hd]) (by simp [stopEngine]) rfl rfl
  case inr.inr.inr.inr.inl =>
    have hde : r.de = s.de := by rw [heff.frame]
    have hre : r.reN = s.reN := by rw [heff.frame]
    exact h.of_outside_tx (by simp [hd]) (by simp) (by rw [finishCommand_de, hde]) (by rw [finishCommand_reN, hre])
  case inr.inr.inr.inr.inr.inl => simp [DrivesInTx, startReply]
  case inr.inr.inr.inr.inr.inr.inl => exact h
  case inr.inr.inr.inr.inr.inr.inr => simp [DrivesInTx, endReply]

theorem DrivesInTx.step {s t : State} (h : DrivesInTx s) (hst : step s = .next t) : DrivesInTx t := by
  have hpop : DrivesInTx s.popped := h
  rcases step_cases s t hst with ⟨v, err, -, rfl⟩ | ⟨-, he⟩ | ⟨acc, -, ha⟩ | ⟨dt, -, rfl⟩ | ⟨-, rfl⟩
  · exact hpop.of_lineControl_eq (lineControl_arrive v err s.popped)
  · exact hpop.engineStep he
  · exact hpop.of_lineControl_eq (lineControl_access acc s.popped t ha)
  · exact hpop
  · exact drivesInTx_reset

/-- Settles O30: the invariant `DrivesInTx` holds at reset and is kept, and a block that drives the line hears nothing. -/
theorem driverOnExactlyInTx : Obligations.DriverOnExactlyInTx := by
  refine ⟨drivesInTx_reset, fun s t h hst => DrivesInTx.step h hst, fun s v err rest hde hd hs => ?_⟩
  rw [step_cons s _ rest hs, runMove, arrive_of_not_listening v err { s with schedule := rest } (.inr (hde.2 hd))]

/-! ### The event bits of a command (44_dispatcher R183) -/

theorem bitVec_and_or_self {w : Nat} (x y : BitVec w) : x &&& (x ||| y) = x := by
  ext n hn
  simp only [BitVec.getElem_and, BitVec.getElem_or]
  exact inf_sup_self

theorem bitVec_or_and_self {w : Nat} (x y : BitVec w) : (x ||| y) &&& y = y := by
  rw [BitVec.and_comm, BitVec.or_comm, bitVec_and_or_self]

/-- A command clears no event bit. -/
theorem CommandEffect.events_eq_or {u : UnitId} {s r : State} (h : CommandEffect u s r) :
    ∃ m, r.events = s.events ||| m := by
  rcases h.record with ⟨-, -, e⟩ | ⟨-, -, e⟩ | ⟨-, -, e⟩
  · exact ⟨0, e.trans BitVec.or_zero.symm⟩
  · exact ⟨_, e⟩
  · exact ⟨_, e⟩

/-! ### What the end of an EXEC step leaves (44_dispatcher R183, R184) -/

theorem finishCommand_sq_of_ne {u : UnitId} (h : u ≠ .sq) (s : State) : (finishCommand u s).sq = s.sq := by
  cases u
  case sq => exact absurd rfl h
  all_goals rfl

theorem finishCommand_pda_of_ne {u : UnitId} (h : u ≠ .pda) (s : State) : (finishCommand u s).pda = s.pda := by
  cases u
  case pda => exact absurd rfl h
  all_goals rfl

theorem finishCommand_spa_of_ne {u : UnitId} (h : u ≠ .spa) (s : State) : (finishCommand u s).spa = s.spa := by
  cases u
  case spa => exact absurd rfl h
  all_goals rfl

/-- `t` with all that neither a command's effect nor the end of its EXEC step writes taken from `s`. -/
def withFrameOf (s t : State) : State :=
  { t with
    ss := s.ss, cbuf := s.cbuf, clen := s.clen, rxFifo := s.rxFifo, tRef := s.tRef, txT0 := s.txT0
    fDest := s.fDest, fCmd := s.fCmd, fNargs := s.fNargs, fArgs := s.fArgs, fUnit := s.fUnit
    de := s.de, reN := s.reN, txd := s.txd, ctrl := s.ctrl, now := s.now, schedule := s.schedule
    hostRdata := s.hostRdata, lineOut := s.lineOut, par := s.par }

theorem finishCommand_withFrameOf (u : UnitId) (s r : State) :
    finishCommand u (withFrameOf s r) = withFrameOf s (finishCommand u r) := by
  cases u <;> rfl

theorem CommandEffect.eq_withFrameOf {u : UnitId} {s r : State} (h : CommandEffect u s r) : r = withFrameOf s r := by
  rw [h.frame]
  rfl

/-- Settles O33: every command is an effect on its own unit (`exec_command`) and the end of the EXEC step, whose reply
carries the pending byte that the effect has left alone. -/
theorem everyCommandRepliesOnce : Obligations.EveryCommandRepliesOnce := by
  intro i u s hi
  obtain ⟨r, hexec, heff⟩ := exec_command i u s hi
  obtain ⟨m, hevents⟩ := heff.events_eq_or
  have hlen : (finishCommand u r).txLen = (encodeFrame 0x00 0x01 [u.ackByte, s.pending u]).length := by
    rw [finishCommand_txLen, heff.pending, Config.replyDest, Config.replyCmd]
  refine ⟨finishCommand u r, hexec, finishCommand_ds u r, pending_finishCommand u r, ?seq, hlen, finishCommand_txPos u r,
    ?wire, ?set, ?kept, fun hu => ?sq, fun hu => ?pda, fun hu => ?spa, ?frame⟩
  case seq => rw [seq_finishCommand, heff.seq]
  case wire =>
    rw [hlen, finishCommand_txBuf, heff.pending]
    exact take_overwrite r.txBuf _
  case set => rw [finishCommand_events, bitVec_or_and_self]
  case kept => rw [finishCommand_events, hevents, BitVec.or_assoc, bitVec_and_or_self]
  case sq => rw [finishCommand_sq_of_ne hu, heff.sq hu]
  case pda => rw [finishCommand_pda_of_ne hu, heff.pda hu]
  case spa => rw [finishCommand_spa_of_ne hu, heff.spa hu]
  case frame =>
    calc finishCommand u r = finishCommand u (withFrameOf s r) := congrArg (finishCommand u) heff.eq_withFrameOf
      _ = withFrameOf s (finishCommand u r) := finishCommand_withFrameOf u s r

end Sys2Proof.Machine
end

section
/-! The family `45_host_interface.md`: the row of the host map that takes an access, the bytes of the windows, the fields
of the register images, and the writes. -/

namespace Sys2Proof.Machine

open Sys2Proof.Spec

/-! ### The row that takes an access (20_memory R75, 30_encoding R104) -/

/-- Two rows of the host map differ in a key bit that both fix. -/
theorem hostRows_pairwise_disjoint :
    hostRows.Pairwise fun r r' => (r.pattern ^^^ r'.pattern) &&& (r.mask &&& r'.mask) ≠ 0 := by
  decide

theorem patterns_agree_of_takes {r r' : HostRow} {acc : HostAccess} (h : r.takes acc = true)
    (h' : r'.takes acc = true) :
    (r.pattern ^^^ r'.pattern) &&& (r.mask &&& r'.mask) = 0 := by
  simp only [HostRow.takes, beq_iff_eq] at h h'
  rw [← h, ← h']
  ext n hn
  cases hm : r.mask[n] <;> cases hm' : r'.mask[n] <;> simp [hm, hm']

/-- The order of the rows does not matter: whichever row takes an aligned access gives its instruction. -/
theorem accessInstr_of_takes {r : HostRow} {acc : HostAccess} (hr : r ∈ hostRows) (ha : acc.addr.toNat % 4 = 0)
    (ht : r.takes acc = true) : accessInstr acc = r.instr acc := by
  obtain ⟨before, after, hsplit⟩ := List.append_of_mem hr
  have hfirst : ∀ x ∈ before, (!x.takes acc) = true := by
    intro x hx
    obtain ⟨-, -, hdisjoint⟩ := List.pairwise_append.1 (hsplit ▸ hostRows_pairwise_disjoint)
    simpa using fun hxt => hdisjoint x hx r List.mem_cons_self (patterns_agree_of_takes hxt ht)
  have hfind : hostRows.find? (·.takes acc) = some r :=
    List.find?_eq_some_iff_append.2 ⟨ht, before, after, hsplit, hfirst⟩
  rw [accessInstr, if_neg (not_not.2 ((extractLsb'_low_two_eq_zero_iff acc.addr).2 ha)), hfind]

/-- The data of a write play no part in which row takes it. -/
theorem decode_write_of_takes {r : HostRow} {a : HostAddr} (en : Enables) (v : Word) (hr : r ∈ hostRows)
    (ha : a.toNat % 4 = 0) (ht : r.takes (.write a 0) = true) :
    decode en (.host (.write a v)) = .ok (r.instr (.write a v)) :=
  congrArg Except.ok (accessInstr_of_takes (acc := .write a v) hr ha ht)

/-! ### The rows of the windows (20_memory R73, R75) -/

theorem key_read_toNat (a : HostAddr) : (HostAccess.read a).key.toNat = a.toNat := by
  rw [HostAccess.key, HostAccess.addr, BitVec.toNat_append]
  simp [HostAccess.isWrite]

/-- The bits of an address that select a word of a window are none of those the window's row fixes. -/
theorem wordOffset_and_windowMask {w : Nat} (j : BitVec w) :
    (j.setWidth 13 <<< 2) &&& ~~~((BitVec.allOnes w).setWidth 13 <<< 2) = 0 := by
  ext n hn
  by_cases h2 : n < 2
  · simp [h2]
  · by_cases hw : n - 2 < w
    · simp [h2, hw]
    · simp [h2, BitVec.getLsbD_of_ge j (n - 2) (by omega)]

/-- The row `r` of the host map takes the reads of a window of `2 ^ w` words, aligned to its own size. -/
structure IsWindow (r : HostRow) (w : Nat) : Prop where
  mem : r ∈ hostRows
  mask : r.mask = ~~~((BitVec.allOnes w).setWidth 13 <<< 2)
  pattern : r.pattern &&& r.mask = r.pattern
  base : 4 * 2 ^ w ∣ r.pattern.toNat

theorem IsWindow.takes_read {r : HostRow} {w : Nat} (h : IsWindow r w) {a : HostAddr} {j : BitVec w}
    (ha : a.toNat = r.pattern.toNat + 4 * j.toNat) : r.takes (.read a) = true := by
  have hoff : (j.setWidth 13 <<< 2) &&& r.mask = 0 := h.mask ▸ wordOffset_and_windowMask j
  have hdis : r.pattern &&& (j.setWidth 13 <<< 2) = 0 := by
    rw [← h.pattern, BitVec.and_assoc, BitVec.and_comm r.mask, hoff]
    exact BitVec.and_zero
  have hkey : (HostAccess.read a).key = r.pattern ||| (j.setWidth 13 <<< 2) := by
    rw [← BitVec.add_eq_or_of_and_eq_zero _ _ hdis, ← BitVec.toNat_inj, key_read_toNat]
    have hlt := a.isLt
    simp only [BitVec.toNat_add, BitVec.toNat_shiftLeft, BitVec.toNat_setWidth, Nat.shiftLeft_eq]
    omega
  rw [HostRow.takes, beq_iff_eq, hkey, BitVec.and_or_distrib_right, h.pattern, hoff]
  exact BitVec.or_zero

theorem IsWindow.word_eq {r : HostRow} {w : Nat} (h : IsWindow r w) {a : HostAddr} {j : BitVec w}
    (ha : a.toNat = r.pattern.toNat + 4 * j.toNat) : a.extractLsb' 2 w = j := by
  obtain ⟨q, hq⟩ := h.base
  have hdiv : a.toNat / 4 = 2 ^ w * q + j.toNat := by rw [ha, hq, Nat.mul_assoc]; omega
  rw [← BitVec.toNat_inj, BitVec.extractLsb'_toNat, Nat.shiftRight_eq_div_pow, hdiv, Nat.mul_add_mod,
    Nat.mod_eq_of_lt j.isLt]

theorem IsWindow.aligned {r : HostRow} {w : Nat} (h : IsWindow r w) {a : HostAddr} {j : BitVec w}
    (ha : a.toNat = r.pattern.toNat + 4 * j.toNat) : a.toNat % 4 = 0 := by
  have h4 : 4 ∣ r.pattern.toNat := (Nat.dvd_mul_right 4 (2 ^ w)).trans h.base
  omega

/-- The read at word `j` of a window is the window's instruction for word `j`. -/
theorem IsWindow.decode_read {w : Nat} {p m : BitVec 13} {i : BitVec w → Instr}
    (h : IsWindow ⟨p, m, fun acc => i (acc.addr.extractLsb' 2 w)⟩ w) (en : Enables) (a : HostAddr) (j : BitVec w)
    (ha : a.toNat = p.toNat + 4 * j.toNat) : decode en (.host (.read a)) = .ok (i j) := by
  have hinstr := accessInstr_of_takes (acc := .read a) h.mem (h.aligned ha) (h.takes_read ha)
  calc decode en (.host (.read a)) = .ok (i (a.extractLsb' 2 w)) := congrArg Except.ok hinstr
    _ = .ok (i j) := by rw [h.word_eq ha]

theorem isWindow_dispSq : IsWindow ⟨0x0200, 0x1F03, fun acc => .hDispRdSq (acc.addr.extractLsb' 2 6)⟩ 6 :=
  ⟨by simp [hostRows, sqRows], by decide, by decide, by decide⟩

theorem isWindow_dispPda : IsWindow ⟨0x0500, 0x1F03, fun acc => .hDispRdPda (acc.addr.extractLsb' 2 6)⟩ 6 :=
  ⟨by simp [hostRows, pdaRows], by decide, by decide, by decide⟩

theorem isWindow_kstatSq : IsWindow ⟨0x0180, 0x1F83, fun acc => .hKstatRdSq (acc.addr.extractLsb' 2 5)⟩ 5 :=
  ⟨by simp [hostRows, sqRows], by decide, by decide, by decide⟩

theorem isWindow_kstatPda : IsWindow ⟨0x0480, 0x1F83, fun acc => .hKstatRdPda (acc.addr.extractLsb' 2 5)⟩ 5 :=
  ⟨by simp [hostRows, pdaRows], by decide, by decide, by decide⟩

theorem isWindow_spaText : IsWindow ⟨0x0720, 0x1FFB, fun acc => .hSpaTextRd (acc.addr.extractLsb' 2 1)⟩ 1 :=
  ⟨by simp [hostRows, spaRows], by decide, by decide, by decide⟩

/-! ### The bytes of the windows (45_host R204, R206, R208) -/

theorem extractLsb'_windowWord (b : Nat → Byte) (j n : Nat) (hn : n < 4) :
    (windowWord b j).extractLsb' (8 * n) 8 = b (4 * j + n) := by
  rw [windowWord]
  match n, hn with
  | 0, _ => exact BitVec.extractLsb'_append_eq_right
  | 1, _ => rw [BitVec.extractLsb'_append_eq_of_le (by decide), BitVec.extractLsb'_append_eq_right]
  | 2, _ =>
    rw [BitVec.extractLsb'_append_eq_of_le (by decide), BitVec.extractLsb'_append_eq_of_le (by decide),
      BitVec.extractLsb'_append_eq_right]
  | 3, _ =>
    rw [BitVec.extractLsb'_append_eq_of_le (by decide), BitVec.extractLsb'_append_eq_of_le (by decide),
      BitVec.extractLsb'_append_eq_left]

/-- An instruction that returns word `j` of a window whose bytes are `f` returns the bytes `f` names, and nothing else
changes. -/
theorem exec_windowRead {i : Instr} {s : State} {b : Nat → Byte} {j : Nat} {f : Nat → Option Byte}
    (he : exec i s = .next (hostReturn (windowWord b j) s)) (hb : ∀ k, some (b k) = f k) :
    ∃ v : Word, exec i s = .next { s with hostRdata := v }
      ∧ ∀ n, n < 4 → some (v.extractLsb' (8 * n) 8) = f (4 * j + n) :=
  ⟨windowWord b j, he, fun n hn => by rw [extractLsb'_windowWord b j n hn, hb]⟩

theorem some_getD {l : List Byte} {k : Nat} (h : k < l.length) : some (l.getD k 0) = l[k]? := by
  rw [List.getD_eq_getElem l 0 h, List.getElem?_eq_getElem h]

theorem some_kstatByte {x : Keypad} (h : x.kstat.length = 121) (k : Nat) :
    some (x.kstatByte k) = if k < 121 then x.kstat[k]? else some 0 := by
  rw [Keypad.kstatByte, Config.maxArgs]
  split
  case isTrue hk => exact some_getD (h ▸ hk)
  case isFalse => rfl

theorem some_textByte {x : Spa} (h : x.text.length = 7) (k : Nat) :
    some (x.textByte k) = if k < 7 then x.text[k]? else some 0 := by
  rw [Spa.textByte, Config.spaTextMax]
  split
  case isTrue hk => exact some_getD (h ▸ hk)
  case isFalse => rfl

/-- Past the display nothing is defined; inside it, row `k / 16` exists and is 16 cells wide. -/
theorem some_dispByte {x : Keypad} {rows : Nat} (h : GridWf rows x.disp) (k : Nat) :
    some (x.dispByte rows k) = if k < rows * 16 then cell x.disp (k / 16) (k % 16) else some 0 := by
  rw [Keypad.dispByte, Config.width]
  split
  case isTrue hk =>
    have hrow : k / 16 < x.disp.length := by rw [h.height]; omega
    have hcol : k % 16 < x.disp[k / 16].length := by rw [h.width _ (List.getElem_mem hrow)]; omega
    rw [cell, List.getD_eq_getElem _ _ hrow, List.getElem?_eq_getElem hrow, Option.bind_some, some_getD hcol]
  case isFalse => rfl

/-- The lengths fit in the eight bits the register holds. -/
theorem lengthImage_toNat {n : Nat} (h : n < 256) : ((BitVec.ofNat 8 n).setWidth 32).toNat = n := by
  rw [BitVec.toNat_setWidth_of_le (by decide), BitVec.toNat_ofNat, Nat.mod_eq_of_lt h]

/-- Settles O49: each window is a row of the host map (`IsWindow`), and each byte of its words is the one the window
defines there. -/
theorem windowReads : Obligations.WindowReads := by
  intro en s hsq hpda hksq hkpda htext
  refine ⟨isWindow_dispSq.decode_read en, isWindow_dispPda.decode_read en, isWindow_kstatSq.decode_read en,
    isWindow_kstatPda.decode_read en, isWindow_spaText.decode_read en, ⟨rfl, rfl, rfl⟩,
    fun j => exec_windowRead (exec_hDispRdSq j s) (some_dispByte hsq),
    fun j => exec_windowRead (exec_hDispRdPda j s) (some_dispByte hpda),
    fun j => exec_windowRead (exec_hKstatRdSq j s) (some_kstatByte hksq),
    fun j => exec_windowRead (exec_hKstatRdPda j s) (some_kstatByte hkpda),
    fun j => exec_windowRead (exec_hSpaTextRd j s) (some_textByte htext),
    ⟨_, exec_hKstatLenRdSq s, fun h => lengthImage_toNat (by omega)⟩,
    ⟨_, exec_hKstatLenRdPda s, fun h => lengthImage_toNat (by omega)⟩,
    ⟨_, exec_hSpaTextLenRd s, fun h => lengthImage_toNat (by omega)⟩⟩

/-! ### The fields of the register images (10_state R32 to R35, R39, R44, R45) -/

theorem dispatchState_code_eq_dsCode (d : DispatchState) : d.code = dsCode d := by
  cases d <;> rfl

theorem syncState_code_eq_ssCode (x : SyncState) : x.code = ssCode x := by
  cases x <;> rfl

theorem triState_code_eq_triCode (t : TriState) : t.code = triCode t := by
  cases t <;> rfl

/-- A register narrower than a word reads as itself, with zeros above it. -/
theorem extractLsb'_setWidth_fields {w n : Nat} (x : BitVec w) (h : w ≤ n) :
    (x.setWidth n).extractLsb' 0 w = x ∧ (x.setWidth n).extractLsb' w (n - w) = 0 := by
  constructor
  · rw [BitVec.extractLsb'_setWidth_of_le (by omega), BitVec.extractLsb'_eq_self]
  · ext k hk
    simp

theorem lastErrImage_fields (s : State) :
    s.lastErrImage.extractLsb' 0 4 = s.lastErr.cause ∧ s.lastErrImage.extractLsb' 4 12 = 0
      ∧ s.lastErrImage.extractLsb' 16 16 = s.lastErr.info := by
  rw [State.lastErrImage]
  refine ⟨BitVec.extractLsb'_append_eq_right, ?zero, ?info⟩
  all_goals rw [BitVec.extractLsb'_append_eq_of_le (by decide)]
  case zero => exact BitVec.extractLsb'_append_eq_right
  case info => exact BitVec.extractLsb'_append_eq_left

theorem statusImage_fields (s : State) :
    s.statusImage.getLsbD 0 = decide (s.ds ≠ .stopped) ∧ s.statusImage.extractLsb' 1 3 = dsCode s.ds
      ∧ s.statusImage.extractLsb' 4 2 = ssCode s.ss ∧ s.statusImage.extractLsb' 6 2 = 0
      ∧ s.statusImage.extractLsb' 8 8 = BitVec.ofNat 8 s.clen
      ∧ s.statusImage.extractLsb' 16 8 = BitVec.ofNat 8 (min s.rxFifo.length 255)
      ∧ s.statusImage.extractLsb' 24 8 = 0 := by
  rw [State.statusImage, dispatchState_code_eq_dsCode, syncState_code_eq_ssCode]
  refine ⟨?running, ?ds, ?ss, ?reserved, ?clen, ?fifo, ?top⟩
  case running =>
    rw [BitVec.getLsbD_append]
    simp
  all_goals rw [BitVec.extractLsb'_append_eq_of_le (by decide)]
  case ds => exact BitVec.extractLsb'_append_eq_right
  all_goals rw [BitVec.extractLsb'_append_eq_of_le (by decide)]
  case ss => exact BitVec.extractLsb'_append_eq_right
  all_goals rw [BitVec.extractLsb'_append_eq_of_le (by decide)]
  case reserved => exact BitVec.extractLsb'_append_eq_right
  all_goals rw [BitVec.extractLsb'_append_eq_of_le (by decide)]
  case clen => exact BitVec.extractLsb'_append_eq_right
  all_goals rw [BitVec.extractLsb'_append_eq_of_le (by decide)]
  case fifo => exact BitVec.extractLsb'_append_eq_right
  case top => exact BitVec.extractLsb'_append_eq_left

theorem invImage_fields (i : Inv) :
    i.image.getLsbD 0 = i.valid ∧ i.image.extractLsb' 1 7 = 0 ∧ i.image.extractLsb' 8 8 = i.line
      ∧ i.image.extractLsb' 16 8 = i.start ∧ i.image.extractLsb' 24 8 = i.stop := by
  rw [Inv.image]
  refine ⟨?valid, ?reserved, ?line, ?start, ?stop⟩
  case valid =>
    rw [BitVec.getLsbD_append]
    simp
  all_goals rw [BitVec.extractLsb'_append_eq_of_le (by decide)]
  case reserved => exact BitVec.extractLsb'_append_eq_right
  all_goals rw [BitVec.extractLsb'_append_eq_of_le (by decide)]
  case line => exact BitVec.extractLsb'_append_eq_right
  all_goals rw [BitVec.extractLsb'_append_eq_of_le (by decide)]
  case start => exact BitVec.extractLsb'_append_eq_right
  case stop => exact BitVec.extractLsb'_append_eq_left

theorem spaStatusImage_fields (x : SpaStatus) :
    x.image.extractLsb' 0 2 = triCode x.spa ∧ x.image.extractLsb' 2 2 = triCode x.jets
      ∧ x.image.extractLsb' 4 2 = triCode x.heat ∧ x.image.extractLsb' 6 26 = 0 := by
  simp only [SpaStatus.image, triState_code_eq_triCode]
  refine ⟨BitVec.extractLsb'_append_eq_right, ?jets, ?heat, ?reserved⟩
  all_goals rw [BitVec.extractLsb'_append_eq_of_le (by decide)]
  case jets => exact BitVec.extractLsb'_append_eq_right
  all_goals rw [BitVec.extractLsb'_append_eq_of_le (by decide)]
  case heat => exact BitVec.extractLsb'_append_eq_right
  case reserved => exact BitVec.extractLsb'_append_eq_left

theorem pendingImage_toNat (b : Byte) : (b.setWidth 32).toNat = b.toNat :=
  BitVec.toNat_setWidth_of_le (by decide)

/-- The constants of R44, in the numbers of 10_state R37. -/
theorem dimsImage_eq : dimsImage .sq = 0x8B400C10 ∧ dimsImage .pda = 0x40600A10 ∧ dimsImage .spa = 0x00200000 := by
  decide

/-- Settles O47: each address selects its row, and each image has the fields its rule gives. -/
theorem globalRegisterReads : Obligations.GlobalRegisterReads := fun _ s =>
  ⟨⟨rfl, s.ctrlImage, exec_hCtrlRd s, extractLsb'_setWidth_fields s.ctrl (by decide)⟩,
    ⟨rfl, s.statusImage, exec_hStatusRd s, statusImage_fields s⟩,
    ⟨rfl, s.eventsImage, exec_hEventsRd s, extractLsb'_setWidth_fields s.events (by decide)⟩,
    ⟨rfl, s.lastErrImage, exec_hLastErrRd s, lastErrImage_fields s⟩,
    ⟨rfl, exec_hCntFrameOkRd s⟩, ⟨rfl, exec_hCntAddressedRd s⟩, ⟨rfl, exec_hCntErrChecksumRd s⟩,
    ⟨rfl, exec_hCntErrEscapeRd s⟩, ⟨rfl, exec_hCntErrOversizeRd s⟩, ⟨rfl, exec_hCntErrRuntRd s⟩,
    ⟨rfl, exec_hCntErrLineRd s⟩, ⟨rfl, exec_hCntErrOverrunRd s⟩, ⟨rfl, exec_hCntReplySentRd s⟩,
    ⟨rfl, exec_hCntUnknownCmdRd s⟩, ⟨rfl, exec_hCntErrCmdArgRd s⟩, ⟨rfl, exec_hCntErrHostRd s⟩⟩

/-- Settles O48, as O47 for the registers of the units. -/
theorem unitRegisterReads : Obligations.UnitRegisterReads := by
  intro en s
  obtain ⟨hsq, hpda, hspa⟩ := dimsImage_eq
  exact ⟨⟨rfl, rfl, rfl, rfl, rfl, rfl, rfl, rfl, rfl, rfl, rfl, rfl⟩,
    ⟨_, exec_hPendingRdSq s, pendingImage_toNat s.sq.pending⟩,
    ⟨_, exec_hPendingRdPda s, pendingImage_toNat s.pda.pending⟩,
    ⟨_, exec_hPendingRdSpa s, pendingImage_toNat s.spa.pending⟩,
    exec_hSeqRdSq s, exec_hSeqRdPda s, exec_hSeqRdSpa s,
    hsq ▸ exec_hDimsRdSq s, hpda ▸ exec_hDimsRdPda s, hspa ▸ exec_hDimsRdSpa s,
    ⟨s.sq.inv.image, exec_hInvRdSq s, invImage_fields s.sq.inv⟩,
    ⟨s.pda.inv.image, exec_hInvRdPda s, invImage_fields s.pda.inv⟩,
    ⟨s.spa.st.image, exec_hSpaStateRd s, spaStatusImage_fields s.spa.st⟩⟩

/-! ### The writes (45_host R201, R202, R209) -/

theorem decode_ctrlWrite (en : Enables) (v : Word) : decode en (.host (.write 0x000 v)) = .ok (.hCtrlWr v) :=
  decode_write_of_takes (r := ⟨0x1000, 0x1FFF, fun acc => .hCtrlWr acc.data⟩) en v
    (by simp [hostRows, globalRows]) (by decide) (by decide)

theorem decode_eventsWrite (en : Enables) (v : Word) : decode en (.host (.write 0x008 v)) = .ok (.hEventsW1c v) :=
  decode_write_of_takes (r := ⟨0x1008, 0x1FFF, fun acc => .hEventsW1c acc.data⟩) en v
    (by simp [hostRows, globalRows]) (by decide) (by decide)

theorem decode_keyWriteSq (en : Enables) (v : Word) : decode en (.host (.write 0x100 v)) = .ok (.hKeyWrSq v) :=
  decode_write_of_takes (r := ⟨0x1100, 0x1FFF, fun acc => .hKeyWrSq acc.data⟩) en v
    (by simp [hostRows, sqRows]) (by decide) (by decide)

theorem decode_keyWritePda (en : Enables) (v : Word) : decode en (.host (.write 0x400 v)) = .ok (.hKeyWrPda v) :=
  decode_write_of_takes (r := ⟨0x1400, 0x1FFF, fun acc => .hKeyWrPda acc.data⟩) en v
    (by simp [hostRows, pdaRows]) (by decide) (by decide)

theorem decode_keyWriteSpa (en : Enables) (v : Word) : decode en (.host (.write 0x700 v)) = .ok (.hKeyWrSpa v) :=
  decode_write_of_takes (r := ⟨0x1700, 0x1FFF, fun acc => .hKeyWrSpa acc.data⟩) en v
    (by simp [hostRows, spaRows]) (by decide) (by decide)

/-- Settles O45: CTRL takes the low bits of the data, and EVENTS loses those written as 1. -/
theorem globalRegisterWrites : Obligations.GlobalRegisterWrites := by
  refine fun en v s => ⟨decode_ctrlWrite en v, decode_eventsWrite en v,
    ⟨v.setWidth 4, exec_hCtrlWr v s, ?ctrl⟩,
    ⟨s.events &&& ~~~(v.setWidth 12), exec_hEventsW1c v s, fun n hn => ?events⟩⟩
  case ctrl => simp only [BitVec.getLsbD_setWidth, Nat.reduceLT, decide_true, Bool.true_and, and_self]
  case events =>
    simp only [BitVec.getLsbD_and, BitVec.getLsbD_not, BitVec.getLsbD_setWidth, hn, decide_true, Bool.true_and]

theorem writeKey_of_recognized {u : UnitId} {v : Word} {s : State} {b : Byte}
    (h : keyByte s.par u (v.toNat % 16) = some b) : writeKey u v s = setPending u b s := by
  rw [writeKey, keyIndex_eq, h]

theorem writeKey_of_unrecognized {u : UnitId} {v : Word} {s : State}
    (h : keyByte s.par u (v.toNat % 16) = none) : writeKey u v s = s := by
  rw [writeKey, keyIndex_eq, h]

/-- Settles O46, by whether the index stands in the unit's key map. -/
theorem keyWriteSetsPending : Obligations.KeyWriteSetsPending := fun en v _ =>
  ⟨decode_keyWriteSq en v, decode_keyWritePda en v, decode_keyWriteSpa en v,
    fun h => congrArg Host.Outcome.next (writeKey_of_recognized (u := .sq) (Vector.getElem?_eq_getElem h)),
    fun h => congrArg Host.Outcome.next (writeKey_of_unrecognized (u := .sq) (Vector.getElem?_eq_none h)),
    fun h => congrArg Host.Outcome.next (writeKey_of_recognized (u := .pda) (Vector.getElem?_eq_getElem h)),
    fun h => congrArg Host.Outcome.next (writeKey_of_unrecognized (u := .pda) (Vector.getElem?_eq_none h)),
    fun h => congrArg Host.Outcome.next (writeKey_of_recognized (u := .spa) (Vector.getElem?_eq_getElem h)),
    fun h => congrArg Host.Outcome.next (writeKey_of_unrecognized (u := .spa) (Vector.getElem?_eq_none h))⟩

end Sys2Proof.Machine
end

section
/-! The table of the fault causes (60_exceptions R221, R222): the causes of the frame path share one event bit, and the
other four have one each. -/

namespace Sys2Proof.Machine

/-- The causes found in a frame differ in their code and their counter only: their event bit is `FRAME_ERR`. -/
theorem raiseFault_of_event_eq_frameErr {c : Cause} (hc : c.event = .frameErr) (x : BitVec 16) (s : State) :
    raiseFault c x s = { s with
      lastErr := ⟨c.code, x⟩, cnt := s.cnt.countFault c, events := s.events ||| 0x001#12 } := by
  rw [raiseFault, hc]
  rfl

theorem raiseFault_cmdArg (x : BitVec 16) (s : State) :
    raiseFault .cmdArg x s = { s with
      lastErr := ⟨7, x⟩, cnt := { s.cnt with errCmdArg := s.cnt.errCmdArg + 1 }, events := s.events ||| 0x008#12 } := rfl

/-- Settles O15, row by row of the table of causes. -/
theorem faultIsRecordedOnly : Obligations.FaultIsRecordedOnly := by
  intro x s
  refine ⟨?checksum, ?escape, raiseFault_oversize x s, ?runt, raiseFault_line x s, raiseFault_overrun x s,
    raiseFault_cmdArg x s, raiseFault_hostAccess x s⟩
  case checksum => exact raiseFault_of_event_eq_frameErr rfl x s
  case escape => exact raiseFault_of_event_eq_frameErr rfl x s
  case runt => exact raiseFault_of_event_eq_frameErr rfl x s

end Sys2Proof.Machine
end

section
/-! The decoder and the encoder (30_encoding): the rows of the host map tile the addresses that 20_memory R75 lists, each
row's instruction is written as the access it takes, and a command is what the command map gives for its frame. -/

namespace Sys2Proof.Machine

open Sys2Proof.Spec

/-! ### The rows tile the map (20_memory R75) -/

/-- How many bytes of the map a row takes: 4 for a register, and the whole of a window. -/
def rowSpan (r : HostRow) : Nat := (~~~r.mask).toNat + 4

/-- The ranges of `readMapped`. -/
def readRanges : List (Nat × Nat) :=
  [(0, 0x040), (0x100, 0x114), (0x180, 0x300), (0x400, 0x414), (0x480, 0x600), (0x700, 0x714), (0x720, 0x728)]

theorem readMapped_iff (a : HostAddr) :
    readMapped a = true ↔ ∃ p ∈ readRanges, p.1 ≤ a.toNat ∧ a.toNat < p.2 := by
  simp [readMapped, readRanges, or_assoc]

/-- Every row is a window of some size; a register is one of a single word. -/
theorem hostRows_windows : ∀ r ∈ hostRows, ∃ w < 7,
    r.mask = ~~~((BitVec.allOnes w).setWidth 13 <<< 2) ∧ r.pattern &&& r.mask = r.pattern
      ∧ 4 * 2 ^ w ∣ r.pattern.toNat ∧ rowSpan r = 4 * 2 ^ w := by
  decide

theorem exists_isWindow {r : HostRow} (hr : r ∈ hostRows) : ∃ w, IsWindow r w ∧ rowSpan r = 4 * 2 ^ w := by
  obtain ⟨w, -, hmask, hpattern, hbase, hspan⟩ := hostRows_windows r hr
  exact ⟨w, ⟨hr, hmask, hpattern, hbase⟩, hspan⟩

/-- Above its word number, the key of a read that a window takes is the window's pattern. -/
theorem IsWindow.div_eq {r : HostRow} {w : Nat} (h : IsWindow r w) {a : HostAddr} (ht : r.takes (.read a) = true) :
    a.toNat / 2 ^ (w + 2) = r.pattern.toNat / 2 ^ (w + 2) := by
  rw [HostRow.takes, beq_iff_eq] at ht
  have hkey : (HostAccess.read a).key >>> (w + 2) = r.pattern >>> (w + 2) := by
    rw [← ht, h.mask]
    ext n hn
    by_cases hb : w + 2 + n < 13
    · simp [hb, show ¬ w + 2 + n < 2 by omega, show ¬ w + 2 + n - 2 < w by omega]
    · simp [BitVec.getLsbD_of_ge _ (w + 2 + n) (Nat.le_of_not_lt hb)]
  have hnat := congrArg BitVec.toNat hkey
  rwa [BitVec.toNat_ushiftRight, BitVec.toNat_ushiftRight, key_read_toNat, Nat.shiftRight_eq_div_pow,
    Nat.shiftRight_eq_div_pow] at hnat

theorem exists_word_of_span {a : HostAddr} {base w : Nat} (hbase : base % 4 = 0) (ha : a.toNat % 4 = 0)
    (hlo : base ≤ a.toNat) (hhi : a.toNat < base + 4 * 2 ^ w) : ∃ j : BitVec w, a.toNat = base + 4 * j.toNat := by
  have hj : (a.toNat - base) / 4 < 2 ^ w := by omega
  refine ⟨BitVec.ofNat w ((a.toNat - base) / 4), ?_⟩
  rw [BitVec.toNat_ofNat, Nat.mod_eq_of_lt hj]
  omega

theorem IsWindow.base_aligned {r : HostRow} {w : Nat} (h : IsWindow r w) : r.pattern.toNat % 4 = 0 :=
  Nat.mod_eq_zero_of_dvd ((Nat.dvd_mul_right 4 (2 ^ w)).trans h.base)

/-- A row takes the aligned reads of the addresses it spans. -/
theorem takes_read_iff {r : HostRow} (hr : r ∈ hostRows) {a : HostAddr} (ha : a.toNat % 4 = 0) :
    r.takes (.read a) = true ↔ r.pattern.toNat ≤ a.toNat ∧ a.toNat < r.pattern.toNat + rowSpan r := by
  obtain ⟨w, hw, hspan⟩ := exists_isWindow hr
  obtain ⟨q, hq⟩ := hw.base
  have hpow : 2 ^ (w + 2) = 4 * 2 ^ w := by rw [Nat.pow_add, Nat.mul_comm]
  have hpos : 0 < 4 * 2 ^ w := by positivity
  rw [hspan]
  constructor
  · intro ht
    have hdiv := hw.div_eq ht
    rw [hpow, hq, Nat.mul_div_cancel_left q hpos] at hdiv
    have hmod := Nat.mod_add_div a.toNat (4 * 2 ^ w)
    have hlt := Nat.mod_lt a.toNat hpos
    rw [hdiv] at hmod
    omega
  · rintro ⟨hle, hlt⟩
    obtain ⟨j, hj⟩ := exists_word_of_span hw.base_aligned ha hle hlt
    exact hw.takes_read hj

/-- How far up from `n` the map is tiled by at most `k` rows, each beginning where the one before it ends. -/
def tiledTo (n : Nat) : Nat → Nat
  | 0 => n
  | k + 1 =>
    match hostRows.find? (fun r => r.pattern.toNat = n) with
    | some r => tiledTo (n + rowSpan r) k
    | none => n

theorem exists_row_of_tiledTo (k n m : Nat) (hn : n ≤ m) (hm : m < tiledTo n k) :
    ∃ r ∈ hostRows, r.pattern.toNat ≤ m ∧ m < r.pattern.toNat + rowSpan r := by
  induction k generalizing n with
  | zero => exact absurd hm (Nat.not_lt.2 hn)
  | succ k ih =>
    simp only [tiledTo] at hm
    split at hm
    · next r hr =>
      have hp : r.pattern.toNat = n := by simpa using List.find?_some hr
      by_cases hin : m < n + rowSpan r
      · exact ⟨r, List.mem_of_find?_eq_some hr, hp.trans_le hn, hp.symm ▸ hin⟩
      · exact ih (n + rowSpan r) (Nat.le_of_not_lt hin) hm
    · exact absurd hm (Nat.not_lt.2 hn)

theorem readRanges_tiled : ∀ p ∈ readRanges, p.2 ≤ tiledTo p.1 16 := by decide

theorem readRows_inside : ∀ r ∈ hostRows, r.pattern.toNat < 4096 →
    ∃ p ∈ readRanges, p.1 ≤ r.pattern.toNat ∧ r.pattern.toNat + rowSpan r ≤ p.2 := by
  decide

theorem readMapped_iff_takes {a : HostAddr} (ha : a.toNat % 4 = 0) :
    readMapped a = true ↔ ∃ r ∈ hostRows, r.takes (.read a) = true := by
  rw [readMapped_iff]
  constructor
  · rintro ⟨p, hp, hlo, hhi⟩
    obtain ⟨r, hr, hspan⟩ := exists_row_of_tiledTo 16 p.1 a.toNat hlo (hhi.trans_le (readRanges_tiled p hp))
    exact ⟨r, hr, (takes_read_iff hr ha).2 hspan⟩
  · rintro ⟨r, hr, ht⟩
    obtain ⟨hlo, hhi⟩ := (takes_read_iff hr ha).1 ht
    obtain ⟨p, hp, hplo, hphi⟩ := readRows_inside r hr (hlo.trans_lt a.isLt)
    exact ⟨p, hp, hplo.trans hlo, hhi.trans_le hphi⟩

theorem writeMapped_iff_takes (a : HostAddr) (v : Word) :
    writeMapped a = true ↔ ∃ r ∈ hostRows, r.takes (.write a v) = true := by
  constructor
  · intro hm
    have ht : ∃ r ∈ hostRows, r.takes (.write a 0) = true := by
      simp only [writeMapped, Bool.or_eq_true, decide_eq_true_eq] at hm
      rcases hm with (((h | h) | h) | h) | h <;> rw [← BitVec.setWidth_eq a, ← BitVec.ofNat_toNat, h] <;> decide
    exact ht
  · rintro ⟨r, hr, ht⟩
    rcases write_rows r hr a v ht with ⟨rfl, -⟩ | ⟨rfl, -⟩ | ⟨rfl, -⟩ | ⟨rfl, -⟩ | ⟨rfl, -⟩ <;> rfl

/-- An aligned access has a meaning exactly if a row takes it. -/
theorem mapped_iff_takes {acc : HostAccess} (ha : acc.addr.toNat % 4 = 0) :
    acc.mapped = true ↔ ∃ r ∈ hostRows, r.takes acc = true := by
  cases acc with
  | read a => exact readMapped_iff_takes ha
  | write a v => exact writeMapped_iff_takes a v

theorem accessInstr_of_unmapped {acc : HostAccess} (ha : acc.addr.toNat % 4 = 0) (hm : acc.mapped = false) :
    accessInstr acc = .hUnmapped acc := by
  rcases accessInstr_cases acc with ⟨hmis, -⟩ | ⟨-, e⟩ | ⟨-, r, hr, ht, -⟩
  · exact absurd ((extractLsb'_low_two_eq_zero_iff acc.addr).2 ha) hmis
  · exact e
  · exact absurd ((mapped_iff_takes ha).2 ⟨r, hr, ht⟩) (Bool.eq_false_iff.1 hm)

/-- Settles O51: no row takes an aligned access that is not mapped. -/
theorem unmappedAccessIsQuiet : Obligations.UnmappedAccessIsQuiet := by
  refine ⟨fun en a v ha => ⟨fun hm => ?read, fun h0 h8 h100 h400 h700 => ?write⟩, fun s a v => ⟨?_, ?_⟩⟩
  case read => exact congrArg Except.ok (accessInstr_of_unmapped (acc := .read a) ha hm)
  case write =>
    have hm : writeMapped a = false := by simp [writeMapped, h0, h8, h100, h400, h700]
    exact congrArg Except.ok (accessInstr_of_unmapped (acc := .write a v) ha hm)
  · rw [exec_hUnmapped, returnZero_read]
    rfl
  · rw [exec_hUnmapped, returnZero_write]

/-! ### What a row's instruction is written as -/

/-- The address of word `j` of a window whose addresses begin with `p`. -/
theorem toNat_windowAddr {n w : Nat} (p : BitVec n) (j : BitVec w) :
    (p ++ j ++ 0#2).toNat = p.toNat * (4 * 2 ^ w) + 4 * j.toNat := by
  have hj : j.toNat < 2 ^ w := j.isLt
  rw [BitVec.toNat_append, BitVec.toNat_append, ← Nat.shiftLeft_add_eq_or_of_lt hj,
    ← Nat.shiftLeft_add_eq_or_of_lt (by decide), Nat.shiftLeft_eq, Nat.shiftLeft_eq]
  simp only [BitVec.toNat_ofNat]
  ring_nf

/-- `i` is a well-formed instruction that is written as the access `acc`. -/
def Writes (i : Instr) (acc : HostAccess) : Prop := i.message = .access acc ∧ i.wf = true

theorem writes_readRegister : ∀ r ∈ hostRows, r.pattern.toNat < 4096 → rowSpan r = 4 →
    (r.instr (.read (r.pattern.extractLsb' 0 12))).message = .access (.read (r.pattern.extractLsb' 0 12))
      ∧ (r.instr (.read (r.pattern.extractLsb' 0 12))).wf = true := by
  decide

theorem windowRows_eq : hostRows.filter (fun r => rowSpan r ≠ 4) = [
    ⟨0x0180, 0x1F83, fun acc => .hKstatRdSq (acc.addr.extractLsb' 2 5)⟩,
    ⟨0x0200, 0x1F03, fun acc => .hDispRdSq (acc.addr.extractLsb' 2 6)⟩,
    ⟨0x0480, 0x1F83, fun acc => .hKstatRdPda (acc.addr.extractLsb' 2 5)⟩,
    ⟨0x0500, 0x1F03, fun acc => .hDispRdPda (acc.addr.extractLsb' 2 6)⟩,
    ⟨0x0720, 0x1FFB, fun acc => .hSpaTextRd (acc.addr.extractLsb' 2 1)⟩] := rfl

/-- The instruction of a window's row is written as the read it takes. -/
theorem IsWindow.writes {w : Nat} {p m : BitVec 13} {i : BitVec w → Instr}
    (h : IsWindow ⟨p, m, fun acc => i (acc.addr.extractLsb' 2 w)⟩ w)
    (hi : ∀ j, ∃ b : HostAddr, b.toNat = p.toNat + 4 * j.toNat ∧ Writes (i j) (.read b)) {a : HostAddr}
    (ha : a.toNat % 4 = 0) (hlo : p.toNat ≤ a.toNat) (hhi : a.toNat < p.toNat + 4 * 2 ^ w) :
    Writes (i (a.extractLsb' 2 w)) (.read a) := by
  obtain ⟨j, hj⟩ := exists_word_of_span h.base_aligned ha hlo hhi
  obtain ⟨b, hb, hw⟩ := hi j
  rwa [h.word_eq hj, BitVec.eq_of_toNat_eq (hj.trans hb.symm)]

theorem writes_windowRow {r : HostRow} (hr : r ∈ hostRows) (hspan : rowSpan r ≠ 4) {a : HostAddr}
    (ha : a.toNat % 4 = 0) (hlo : r.pattern.toNat ≤ a.toNat) (hhi : a.toNat < r.pattern.toNat + rowSpan r) :
    Writes (r.instr (.read a)) (.read a) := by
  have hmem : r ∈ hostRows.filter (fun r => rowSpan r ≠ 4) := List.mem_filter.2 ⟨hr, decide_eq_true hspan⟩
  rw [windowRows_eq] at hmem
  simp only [List.mem_cons, List.not_mem_nil, or_false] at hmem
  rcases hmem with rfl | rfl | rfl | rfl | rfl
  · exact isWindow_kstatSq.writes (fun j => ⟨_, toNat_windowAddr 0b00011#5 j, rfl, rfl⟩) ha hlo hhi
  · exact isWindow_dispSq.writes (fun j => ⟨_, toNat_windowAddr 0x2#4 j, rfl, rfl⟩) ha hlo hhi
  · exact isWindow_kstatPda.writes (fun j => ⟨_, toNat_windowAddr 0b01001#5 j, rfl, rfl⟩) ha hlo hhi
  · exact isWindow_dispPda.writes (fun j => ⟨_, toNat_windowAddr 0x5#4 j, rfl, rfl⟩) ha hlo hhi
  · exact isWindow_spaText.writes (fun j => ⟨_, toNat_windowAddr 0b011100100#9 j, rfl, rfl⟩) ha hlo hhi

theorem writes_row {r : HostRow} (hr : r ∈ hostRows) {acc : HostAccess} (ha : acc.addr.toNat % 4 = 0)
    (ht : r.takes acc = true) : Writes (r.instr acc) acc := by
  cases acc with
  | write a v =>
    rcases write_rows r hr a v ht with ⟨rfl, e⟩ | ⟨rfl, e⟩ | ⟨rfl, e⟩ | ⟨rfl, e⟩ | ⟨rfl, e⟩ <;> rw [e] <;>
      exact ⟨rfl, rfl⟩
  | read a =>
    have haddr : a.toNat % 4 = 0 := ha
    obtain ⟨hlo, hhi⟩ := (takes_read_iff hr haddr).1 ht
    by_cases hspan : rowSpan r = 4
    · have hp : r.pattern.toNat % 4 = 0 := by
        obtain ⟨w, hw, -⟩ := exists_isWindow hr
        exact hw.base_aligned
      have hap : a = r.pattern.extractLsb' 0 12 := by
        apply BitVec.eq_of_toNat_eq
        rw [BitVec.extractLsb'_toNat, Nat.shiftRight_zero, Nat.mod_eq_of_lt (hlo.trans_lt a.isLt)]
        rw [hspan] at hhi
        omega
      rw [hap]
      exact writes_readRegister r hr (hlo.trans_lt a.isLt) hspan
    · exact writes_windowRow hr hspan haddr hlo hhi

/-- The instruction of an access is written as that access. -/
theorem writes_accessInstr (acc : HostAccess) : Writes (accessInstr acc) acc := by
  by_cases ha : acc.addr.toNat % 4 = 0
  · by_cases hm : acc.mapped = true
    · obtain ⟨r, hr, ht⟩ := (mapped_iff_takes ha).1 hm
      rw [accessInstr_of_takes hr ha ht]
      exact writes_row hr ha ht
    · rw [accessInstr_of_unmapped ha (Bool.eq_false_iff.2 hm)]
      exact ⟨rfl, by simp [Instr.wf, aligned, ha, hm]⟩
  · rw [accessInstr_misaligned acc ha]
    exact ⟨rfl, by simp [Instr.wf, aligned, ha]⟩

/-- No enable bears on what is written as an access. -/
theorem admissible_of_message_access (en : Enables) {i : Instr} {acc : HostAccess} (h : i.message = .access acc) :
    i.admissible en = true := by
  cases i <;> simp only [Instr.message, reduceCtorEq] at h <;> rfl

/-! ### Commands and the frames they are written as (30_encoding R98) -/

/-- A well-formed command is what the command map gives for some frame. -/
theorem exists_commandOf {i : Instr} {u : UnitId} (hu : i.unit? = some u) (hwf : i.wf = true) :
    ∃ c a, commandOf u c a = i ∧ a.length ≤ 121 := by
  cases i <;> simp only [Instr.unit?, reduceCtorEq, Option.some.injEq] at hu <;> subst hu
  case sqProbe a | pdaProbe a | spaProbe a => exact ⟨0x00, a, rfl, (argsFit_iff a).1 hwf⟩
  case sqStatus a | pdaStatus a | spaBstatus a => exact ⟨0x02, a, rfl, (argsFit_iff a).1 hwf⟩
  case spaTstatus a => exact ⟨0x03, a, rfl, (argsFit_iff a).1 hwf⟩
  case sqWrite a | pdaWrite a => exact ⟨0x04, a, rfl, (argsFit_iff a).1 hwf⟩
  case sqHandshake a | pdaHandshake a => exact ⟨0x05, a, rfl, (argsFit_iff a).1 hwf⟩
  case sqInvline a | pdaInvline a => exact ⟨0x08, a, rfl, (argsFit_iff a).1 hwf⟩
  case sqClear a | pdaClear a | spaChreq a => exact ⟨0x09, a, rfl, (argsFit_iff a).1 hwf⟩
  case sqScroll a | pdaScroll a => exact ⟨0x0F, a, rfl, (argsFit_iff a).1 hwf⟩
  case sqInvrange a | pdaInvrange a => exact ⟨0x10, a, rfl, (argsFit_iff a).1 hwf⟩
  all_goals
    rename_i c a
    simp only [Instr.wf, Bool.and_eq_true, Bool.not_eq_true', List.contains_eq_mem, decide_eq_false_iff_not] at hwf
    obtain ⟨hfit, hc⟩ := hwf
    refine ⟨c, a, ?_, (argsFit_iff a).1 hfit⟩
  case sqUnknown => exact (commandOf_keypad_unknown c a hc).1
  case pdaUnknown => exact (commandOf_keypad_unknown c a hc).2
  case spaUnknown => exact commandOf_spa_unknown c a hc

theorem admissible_command {i : Instr} {u : UnitId} (hu : i.unit? = some u) (en : Enables) :
    i.admissible en = en.has u := by
  simp only [Instr.admissible, hu]

theorem unitOfAck_ackByte (u : UnitId) : unitOfAck u.ackByte = some u := by
  cases u <;> rfl

theorem eq_ackByte_of_unitOfAck {b : Byte} {u : UnitId} (h : unitOfAck b = some u) : b = u.ackByte := by
  simp only [unitOfAck] at h
  split_ifs at h with hsq hpda hspa <;> cases h
  · exact hsq
  · exact hpda
  · exact hspa

/-! ### Decoding after encoding -/

theorem decode_encode_command {i : Instr} {u : UnitId} {en : Enables} (hu : i.unit? = some u) (hwf : i.wf = true)
    (hadm : i.admissible en = true) : decode en (encode i) = .ok i := by
  rw [admissible_command hu] at hadm
  obtain ⟨c, a, rfl, hlen⟩ := exists_commandOf hu hwf
  rw [encode, commandOf_message, Message.code, decode, decodeWire_encodeFrame u.addr c a hlen]
  simp only [Except.map, frameInstr, unitFor_addr en u hadm]

theorem decode_encode_discard {d c : Byte} {a : List Byte} {en : Enables} (hwf : (Instr.discard d c a).wf = true)
    (hadm : (Instr.discard d c a).admissible en = true) :
    decode en (encode (.discard d c a)) = .ok (.discard d c a) := by
  have hnone : unitFor en d = none := (unmatched_iff en d).1 hadm
  rw [encode, Instr.message, Message.code, decode, decodeWire_encodeFrame d c a ((argsFit_iff a).1 hwf)]
  simp only [Except.map, frameInstr, hnone]

theorem decode_encode_ack (u : UnitId) (p : Byte) (en : Enables) :
    decode en (encode (.ack u p)) = .ok (.ack u p) := by
  rw [encode, Instr.message, Message.code, decode, decodeWire_encodeFrame 0x00 0x01 [u.ackByte, p] (by simp)]
  simp only [Except.bind, replyInstr, Config.replyDest, Config.replyCmd, and_self, if_true, unitOfAck_ackByte]

/-- Settles O2: a command by the command map, a discarded frame and a reply by their frames, and a host operation by the
row that takes its access. -/
theorem decodeAfterEncode : Obligations.DecodeAfterEncode := by
  intro en i hwf hadm
  cases hu : i.unit? with
  | some u => exact decode_encode_command hu hwf hadm
  | none =>
    cases i <;> simp only [Instr.unit?, reduceCtorEq] at hu
    case discard d c a => exact decode_encode_discard hwf hadm
    case ack u p => exact decode_encode_ack u p en
    case hCtrlWr v => exact decode_ctrlWrite en v
    case hEventsW1c v => exact decode_eventsWrite en v
    case hKeyWrSq v => exact decode_keyWriteSq en v
    case hKeyWrPda v => exact decode_keyWritePda en v
    case hKeyWrSpa v => exact decode_keyWriteSpa en v
    case hKstatRdSq j => exact isWindow_kstatSq.decode_read en _ j (toNat_windowAddr 0b00011#5 j)
    case hDispRdSq j => exact isWindow_dispSq.decode_read en _ j (toNat_windowAddr 0x2#4 j)
    case hKstatRdPda j => exact isWindow_kstatPda.decode_read en _ j (toNat_windowAddr 0b01001#5 j)
    case hDispRdPda j => exact isWindow_dispPda.decode_read en _ j (toNat_windowAddr 0x5#4 j)
    case hSpaTextRd j => exact isWindow_spaText.decode_read en _ j (toNat_windowAddr 0b011100100#9 j)
    case hMisaligned acc =>
      exact congrArg Except.ok (accessInstr_misaligned acc (by simpa [Instr.wf, aligned] using hwf))
    case hUnmapped acc =>
      simp only [Instr.wf, aligned, Bool.and_eq_true, decide_eq_true_eq, Bool.not_eq_true'] at hwf
      exact congrArg Except.ok (accessInstr_of_unmapped hwf.1 hwf.2)
    all_goals rfl

/-! ### Encoding after decoding -/

/-- `i` is a well-formed instruction that `en` admits, and it is written as `c`. -/
def IsCodeOf (en : Enables) (c : Code) (i : Instr) : Prop :=
  encode i = c ∧ i.wf = true ∧ i.admissible en = true

theorem isCodeOf_frameInstr (en : Enables) (f : Frame) (h : f.args.length ≤ 121) :
    IsCodeOf en (.rx (encodeFrame f.dest f.cmd f.args)) (frameInstr en f) := by
  rw [frameInstr]
  cases hu : unitFor en f.dest with
  | none => exact ⟨rfl, (argsFit_iff _).2 h, (unmatched_iff en f.dest).2 hu⟩
  | some u =>
    obtain ⟨haddr, hen⟩ := unitFor_some en f.dest u hu
    refine ⟨?_, commandOf_wf u f.cmd f.args h, (admissible_command (commandOf_unit u f.cmd f.args) en).trans hen⟩
    simp only [encode, commandOf_message, Message.code, haddr]

/-- Only a frame that a reply encoder builds is read as a reply. -/
theorem isCodeOf_replyInstr (en : Enables) (f : Frame) (i : Instr) (h : replyInstr f = .ok i) :
    IsCodeOf en (.reply (encodeFrame f.dest f.cmd f.args)) i := by
  obtain ⟨d, c, args⟩ := f
  simp only [replyInstr] at h
  split at h
  · split at h
    · next hdc =>
      obtain ⟨rfl, rfl⟩ := hdc
      split at h
      · next u hu =>
        cases h
        exact ⟨by rw [eq_ackByte_of_unitOfAck hu]; rfl, rfl, rfl⟩
      · cases h
    · cases h
  · cases h

theorem isCodeOf_accessInstr (en : Enables) (acc : HostAccess) : IsCodeOf en (.host acc) (accessInstr acc) := by
  obtain ⟨hmessage, hwf⟩ := writes_accessInstr acc
  exact ⟨by rw [encode, hmessage, Message.code], hwf, admissible_of_message_access en hmessage⟩

/-- Settles O3: wire bytes that decode are the encoding of their frame (`eq_encodeFrame_of_decodeWire`), and an access is
what its instruction is written as. -/
theorem encodeAfterDecode : Obligations.EncodeAfterDecode := by
  intro en c i h
  cases c with
  | host acc =>
    cases h
    exact isCodeOf_accessInstr en acc
  | rx wire =>
    rw [decode] at h
    cases hw : decodeWire wire with
    | error e => rw [hw] at h; cases h
    | ok f =>
      rw [hw] at h
      cases h
      obtain ⟨rfl, hlen⟩ := eq_encodeFrame_of_decodeWire wire f hw
      exact isCodeOf_frameInstr en f hlen
  | reply wire =>
    rw [decode] at h
    cases hw : decodeWire wire with
    | error e => rw [hw] at h; cases h
    | ok f =>
      rw [hw] at h
      obtain ⟨rfl, -⟩ := eq_encodeFrame_of_decodeWire wire f hw
      exact isCodeOf_replyInstr en f i h

end Sys2Proof.Machine
end

section
/-! The end of a frame (41_busreader R128, R129, 44_dispatcher R182): the bytes that follow a `DLE`, validation, dispatch,
and the steps that run a decoded instruction. -/

namespace Sys2Proof.Machine

open Sys2Proof.Spec

/-! ### A byte after a `DLE` (41_busreader R127, R128) -/

/-- Settles O20: a filler stores the `DLE`, as `Store` does with any byte, and any other byte is a malformed escape. -/
theorem byteInAccDle : Obligations.ByteInAccDle := by
  intro s b fifo rest h hs hetx
  split
  · next hb =>
    subst hb
    rw [step_of_consume_eq h (consume_accDle_nul _ hs)]
    split
    · next hfull =>
      rw [store_full DLE (afterByte s fifo rest) hfull, raiseFault_oversize]
      rfl
    · next hroom => exact congrArg Host.Outcome.next (store_of_ne DLE (afterByte s fifo rest) hroom)
  · next hnul =>
    rw [step_of_consume_eq h (consume_accDle_of_ne b _ hs hnul hetx), badEscape,
      raiseFault_of_event_eq_frameErr (c := .escape) rfl]
    rfl

/-! ### Validation and dispatch (41_busreader R129, 44_dispatcher R182) -/

theorem unitFor_enables (s : State) (d : Byte) : unitFor s.enables d = selects s.ctrl d := rfl

theorem step_of_etx {s : State} {fifo : List Byte} {rest : List Move} (h : Consumes s ETX fifo rest)
    (hs : s.ss = .accDle) :
    step s = if (validate (afterByte s fifo rest)).2 then dispatchFrame (validate (afterByte s fifo rest)).1
      else .next (validate (afterByte s fifo rest)).1 := by
  rw [step_of_consumes h, consumeStep, consume_etx (afterByte s fifo rest) hs]

/-- `s` after the frame of its content is latched and counted, and the content is given up. -/
def withFrameLatched (s : State) (d c : Byte) (a : List Byte) : State :=
  { s with
    ss := .hunt, clen := 0, fDest := d, fCmd := c, fNargs := a.length, fArgs := a ++ s.fArgs.drop a.length
    cnt := { s.cnt with frameOk := s.cnt.frameOk + 1 }
    events := s.events ||| 0x040#12, tRef := s.now }

theorem validate_of_valid {s : State} {d c : Byte} {a : List Byte}
    (h : s.content = [d, c] ++ a ++ [frameCs d c a]) : validate s = (withFrameLatched s d c a, true) := by
  rw [validate_ok s d c a h, latch_eq s d c _ a h]
  rfl

/-- The trailer of a valid content dispatches the frame just latched. -/
theorem step_of_valid_trailer {s : State} {fifo : List Byte} {rest : List Move} {d c : Byte} {a : List Byte}
    (h : Consumes s ETX fifo rest) (hs : s.ss = .accDle) (hc : s.content = [d, c] ++ a ++ [frameCs d c a]) :
    step s = dispatchFrame (withFrameLatched (afterByte s fifo rest) d c a) := by
  rw [step_of_etx h hs, validate_of_valid (s := afterByte s fifo rest) hc, if_pos rfl]

theorem dispatchFrame_none {s : State} (h : selects s.ctrl s.fDest = none) :
    dispatchFrame s = exec (.discard s.fDest s.fCmd s.frameArgs) s := by
  rw [dispatchFrame, unitFor_enables, h]

theorem dispatchFrame_some {s : State} {u : UnitId} (h : selects s.ctrl s.fDest = some u) :
    dispatchFrame s = .next (accept u s) := by
  rw [dispatchFrame, unitFor_enables, h]

theorem step_of_unmatched_trailer {s : State} {fifo : List Byte} {rest : List Move} {d c : Byte} {a : List Byte}
    (h : Consumes s ETX fifo rest) (hs : s.ss = .accDle) (hc : s.content = [d, c] ++ a ++ [frameCs d c a])
    (hsel : selects s.ctrl d = none) : step s = .next (withFrameLatched (afterByte s fifo rest) d c a) := by
  have hdisc := dispatchFrame_none (s := withFrameLatched (afterByte s fifo rest) d c a) hsel
  rw [step_of_valid_trailer h hs hc, hdisc, exec_discard]

theorem step_of_matched_trailer {s : State} {fifo : List Byte} {rest : List Move} {d c : Byte} {a : List Byte}
    {u : UnitId} (h : Consumes s ETX fifo rest) (hs : s.ss = .accDle)
    (hc : s.content = [d, c] ++ a ++ [frameCs d c a]) (hsel : selects s.ctrl d = some u) :
    step s = .next (accept u (withFrameLatched (afterByte s fifo rest) d c a)) := by
  rw [step_of_valid_trailer h hs hc]
  exact dispatchFrame_some hsel

theorem length_content {s : State} (hlen : s.cbuf.length = 124) (hc : s.clen ≤ 124) : s.content.length = s.clen :=
  List.length_take_of_le (hlen ▸ hc)

/-- Settles O21: the content's length decides the runt, its last byte the checksum, and its address the dispatch. -/
theorem validationAtTrailer : Obligations.ValidationAtTrailer := by
  intro s fifo rest h hs hbuf hclen
  have hlen : (afterByte s fifo rest).content.length = s.clen := length_content hbuf hclen
  refine ⟨fun hrunt => ?runt, fun hlong => ?long⟩
  case runt =>
    rw [step_of_etx h hs, validate_runt _ (hlen.symm ▸ hrunt), hlen, raiseFault_of_event_eq_frameErr (c := .runt) rfl]
    rfl
  case long =>
    have hshape := content_shape s.content (hlen.symm ▸ hlong)
    refine ⟨_, _, _, _, hshape, fun hk => ?_, fun hk hsel => ?_, fun hk u hsel => ?_⟩
    · rw [step_of_etx h hs, validate_bad (afterByte s fifo rest) _ _ _ _ hshape (Ne.symm hk),
        raiseFault_of_event_eq_frameErr (c := .checksum) rfl]
      rfl
    · exact step_of_unmatched_trailer h hs (hk ▸ hshape) hsel
    · exact step_of_matched_trailer h hs (hk ▸ hshape) hsel

/-! ### A step runs the decoded instruction -/

/-- The frame latch gives the EXEC step the command that is written as its frame. -/
theorem latched_eq_of_message {s : State} {i : Instr} {u : UnitId} {f : Frame} (hwf : i.wf = true)
    (hu : i.unit? = some u) (hm : i.message = .frame f) (hunit : s.fUnit = u) (hcmd : s.fCmd = f.cmd)
    (hargs : s.frameArgs = f.args) : s.latched = i := by
  obtain ⟨c, a, rfl, -⟩ := exists_commandOf hu hwf
  rw [commandOf_message] at hm
  cases hm
  rw [State.latched, hunit, hcmd, hargs]

/-- Settles O8: a host access and the EXEC step run `exec` on what they decode, and so does the dispatch of an unmatched
frame, with `DISCARD`. -/
theorem stepRunsDecodedInstruction : Obligations.StepRunsDecodedInstruction := by
  refine ⟨fun s acc rest en i hs hi => ?_, fun s rest i u f hwf hu hm hs hd hunit hcmd hargs => ?_,
    fun s fifo rest d c a h hs hc hsel => ?_⟩
  · cases hi
    rw [step_cons s _ rest hs, runMove]
  · rw [step_cons s _ rest hs, runMove, engineStep_exec { s with schedule := rest } hd,
      latched_eq_of_message (s := { s with schedule := rest }) hwf hu hm hunit hcmd hargs]
  · exact step_of_unmatched_trailer h hs hc hsel

end Sys2Proof.Machine
end

section
/-! The round trip of the line (40_framecodec R117, 41_busreader R133): the engine's steps on the bytes of an encoded
frame, part by part: the header from any synchronizer state, the stuffed content byte by byte, the trailer. -/

namespace Sys2Proof.Machine

open Sys2Proof.Spec

/-- The engine receives: its next moves consume the bytes `w`, which are all that the FIFO holds, and `rest` follows. -/
structure Receiving (s : State) (w : List Byte) (rest : List Move) : Prop where
  ds : s.ds = .recv
  en : s.ctrl.getLsbD 0 = true
  fifo : s.rxFifo = w
  moves : s.schedule = List.replicate w.length .engine ++ rest

/-- `s` with the bytes `w` left to consume. -/
def leaving (s : State) (w : List Byte) (rest : List Move) : State :=
  afterByte s w (List.replicate w.length .engine ++ rest)

theorem Receiving.consumes {s : State} {b : Byte} {w : List Byte} {rest : List Move}
    (h : Receiving s (b :: w) rest) : Consumes s b w (List.replicate w.length .engine ++ rest) :=
  ⟨h.moves, h.ds, h.en, h.fifo⟩

theorem Receiving.leaving_eq {s : State} {w : List Byte} {rest : List Move} (h : Receiving s w rest) :
    leaving s w rest = s := by
  obtain ⟨-, -, hfifo, hmoves⟩ := h
  cases s
  simp only at hfifo hmoves
  subst hfifo hmoves
  rfl

theorem Receiving.step {s t : State} {b : Byte} {w : List Byte} {rest : List Move} (h : Receiving s (b :: w) rest)
    (hc : consume b (leaving s w rest) = (t, false)) : step s = .next t :=
  step_of_consume_eq h.consumes hc

theorem Receiving.run_two {s t t' : State} {b b' : Byte} {w : List Byte} {rest : List Move}
    (h : Receiving s (b :: b' :: w) rest) (hb : consume b (leaving s (b' :: w) rest) = (t, false))
    (ht : Receiving t (b' :: w) rest) (hb' : consume b' (leaving t w rest) = (t', false)) :
    Host.Core.run core 2 s = .next t' := by
  rw [run_succ 1 s t (h.step hb), run_succ 0 t t' (ht.step hb'), run_zero]

/-! ### The header (41_busreader R124, R125, R128) -/

/-- `s` after a header, with nothing accumulated, and with the faults recorded as in `r`. -/
def opened (s r : State) (w : List Byte) (rest : List Move) : State :=
  { leaving s w rest with ss := .acc, clen := 0, cnt := r.cnt, lastErr := r.lastErr, events := r.events }

/-- A header opens a frame from every synchronizer state. While a frame is accumulated it is a malformed escape, at its
`STX` or, behind a pending `DLE`, at its `DLE`; no other state records a fault. -/
theorem Receiving.run_header {s : State} {w : List Byte} {rest : List Move} (h : Receiving s (DLE :: STX :: w) rest) :
    ∃ r : State, Host.Core.run core 2 s = .next (opened s r w rest)
      ∧ (r = s ∨ (s.ss ≠ .hunt ∧ s.ss ≠ .huntDle ∧ ∃ x, r = raiseFault .escape x s)) := by
  cases hs : s.ss with
  | hunt =>
    exact ⟨s, h.run_two (consume_hunt DLE (leaving s (STX :: w) rest) hs) ⟨h.ds, h.en, rfl, rfl⟩
      (consume_huntDle_stx _ rfl), .inl rfl⟩
  | huntDle =>
    exact ⟨s, h.run_two (consume_huntDle_of_ne DLE (leaving s (STX :: w) rest) hs (by decide))
      ⟨h.ds, h.en, rfl, rfl⟩ (consume_huntDle_stx _ rfl), .inl rfl⟩
  | acc =>
    exact ⟨raiseFault .escape (STX.setWidth 16) s, h.run_two (consume_acc_dle (leaving s (STX :: w) rest) hs)
      ⟨h.ds, h.en, rfl, rfl⟩ (consume_accDle_of_ne STX _ rfl (by decide) (by decide)),
      .inr ⟨by decide, by decide, _, rfl⟩⟩
  | accDle =>
    exact ⟨raiseFault .escape (DLE.setWidth 16) s,
      h.run_two (consume_accDle_of_ne DLE (leaving s (STX :: w) rest) hs (by decide) (by decide))
        ⟨h.ds, h.en, rfl, rfl⟩ (consume_huntDle_stx _ rfl), .inr ⟨by decide, by decide, _, rfl⟩⟩

/-! ### The stuffed content (41_busreader R126 to R128) -/

/-- `s` with `n` bytes of `cb` accumulated. -/
def accumulated (s : State) (cb : List Byte) (n : Nat) (w : List Byte) (rest : List Move) : State :=
  { leaving s w rest with ss := .acc, cbuf := cb, clen := n }

theorem Receiving.accumulated_self {s : State} {w : List Byte} {rest : List Move} (h : Receiving s w rest)
    (hs : s.ss = .acc) : accumulated s s.cbuf s.clen w rest = s := by
  rw [accumulated, h.leaving_eq, ← hs]

/-- The one or two bytes that a content byte is stuffed into store that byte. -/
theorem Receiving.run_stuffed_byte {s : State} {b : Byte} {w : List Byte} {rest : List Move}
    (h : Receiving s (stuff [b] ++ w) rest) (hs : s.ss = .acc) (hroom : s.clen ≠ 124) :
    Host.Core.run core (stuff [b]).length s
      = .next (accumulated s (s.cbuf.set s.clen b) (s.clen + 1) w rest) := by
  by_cases hb : b = DLE
  · subst hb
    refine Receiving.run_two (w := w) h (consume_acc_dle (leaving s (NUL :: w) rest) hs) ⟨h.ds, h.en, rfl, rfl⟩ ?_
    rw [consume_accDle_nul _ rfl]
    exact congrArg (·, false) (store_of_ne DLE _ hroom)
  · rw [stuff_cons_of_ne b hb] at h ⊢
    have hone : Receiving s (b :: w) rest := h
    refine run_succ 0 s _ (hone.step ?_)
    rw [consume_acc_of_ne b (leaving s w rest) hs hb]
    exact congrArg (·, false) (store_of_ne b _ hroom)

theorem Receiving.run_stuffed (c : List Byte) {s : State} {w : List Byte} {rest : List Move}
    (h : Receiving s (stuff c ++ w) rest) (hs : s.ss = .acc) (hbuf : s.cbuf.length = 124)
    (hroom : s.clen + c.length ≤ 124) :
    ∃ cb : List Byte, cb.take (s.clen + c.length) = s.content ++ c
      ∧ Host.Core.run core (stuff c).length s = .next (accumulated s cb (s.clen + c.length) w rest) := by
  induction c generalizing s with
  | nil => exact ⟨s.cbuf, (List.append_nil _).symm, congrArg Host.Outcome.next (h.accumulated_self hs).symm⟩
  | cons b c ih =>
    rw [List.length_cons] at hroom
    rw [List.length_cons, Nat.add_comm c.length, ← Nat.add_assoc]
    have hsplit : stuff (b :: c) = stuff [b] ++ stuff c := stuff_append [b] c
    rw [hsplit, List.append_assoc] at h
    rw [hsplit, List.length_append]
    obtain ⟨cb, htake, hrun⟩ := ih (s := accumulated s (s.cbuf.set s.clen b) (s.clen + 1) (stuff c ++ w) rest)
      ⟨h.ds, h.en, rfl, rfl⟩ rfl (List.length_set.trans hbuf) (by simp only [accumulated]; omega)
    refine ⟨cb, htake.trans ?_, ?_⟩
    · have hset := take_set_append s.cbuf s.clen b (by omega)
      rw [List.append_cons]
      exact congrArg (· ++ c) hset
    · rw [run_add _ _ s _ (h.run_stuffed_byte hs (by omega)), hrun]
      rfl

/-! ### The trailer (41_busreader R129, 44_dispatcher R182) -/

theorem Receiving.run_trailer {s : State} {rest : List Move} {d c : Byte} {a : List Byte}
    (h : Receiving s [DLE, ETX] rest) (hs : s.ss = .acc) (hc : s.content = [d, c] ++ a ++ [frameCs d c a]) :
    (selects s.ctrl d = none
        ∧ Host.Core.run core 2 s = .next (withFrameLatched (leaving s [] rest) d c a))
    ∨ ∃ u, selects s.ctrl d = some u
        ∧ Host.Core.run core 2 s = .next (accept u (withFrameLatched (leaving s [] rest) d c a)) := by
  have hdle := h.step (consume_acc_dle (leaving s [ETX] rest) hs)
  have hetx : Receiving { leaving s [ETX] rest with ss := .accDle } [ETX] rest := ⟨h.ds, h.en, rfl, rfl⟩
  rw [run_succ 1 s _ hdle]
  cases hsel : selects s.ctrl d with
  | none => exact .inl ⟨rfl, run_succ 0 _ _ (step_of_unmatched_trailer hetx.consumes rfl hc hsel)⟩
  | some u => exact .inr ⟨u, rfl, run_succ 0 _ _ (step_of_matched_trailer hetx.consumes rfl hc hsel)⟩

/-! ### The whole frame (40_framecodec R117) -/

/-- The engine's steps on an encoded frame latch and dispatch it; what the header records depends on the synchronizer
state that it found. -/
theorem Receiving.run_encodeFrame {s : State} {rest : List Move} {d c : Byte} {a : List Byte}
    (h : Receiving s (encodeFrame d c a) rest) (ha : a.length ≤ 121) (hbuf : s.cbuf.length = 124) :
    ∃ (r : State) (cb : List Byte) (n : Nat),
      (r = s ∨ (s.ss ≠ .hunt ∧ s.ss ≠ .huntDle ∧ ∃ x, r = raiseFault .escape x s))
      ∧ ((selects s.ctrl d = none ∧ Host.Core.run core (encodeFrame d c a).length s
            = .next (withFrameLatched (accumulated (opened s r [] rest) cb n [] rest) d c a))
        ∨ ∃ u, selects s.ctrl d = some u ∧ Host.Core.run core (encodeFrame d c a).length s
            = .next (accept u (withFrameLatched (accumulated (opened s r [] rest) cb n [] rest) d c a))) := by
  rw [encodeFrame_eq] at h
  obtain ⟨r, hheader, hr⟩ := h.run_header
  have hopened : Receiving (opened s r (stuff (frameContent d c a) ++ [DLE, ETX]) rest)
      (stuff (frameContent d c a) ++ [DLE, ETX]) rest := ⟨h.ds, h.en, rfl, rfl⟩
  have hlen := frameContent_length d c a
  obtain ⟨cb, htake, hcontent⟩ := hopened.run_stuffed (frameContent d c a) rfl hbuf
    (by simp only [opened, hlen]; omega)
  have hacc : Receiving (accumulated (opened s r (stuff (frameContent d c a) ++ [DLE, ETX]) rest) cb
      (0 + (frameContent d c a).length) [DLE, ETX] rest) [DLE, ETX] rest := ⟨h.ds, h.en, rfl, rfl⟩
  have htrailer := hacc.run_trailer (d := d) (c := c) (a := a) rfl htake
  have hsteps : (encodeFrame d c a).length = 2 + ((stuff (frameContent d c a)).length + 2) := by
    simp only [encodeFrame_eq, List.length_cons, List.length_append, List.length_nil]
    omega
  rw [hsteps, run_add _ _ s _ hheader, run_add _ _ _ _ hcontent]
  exact ⟨r, cb, _, hr, htrailer⟩

/-- A fault that the header may record leaves the count of frames. -/
theorem frameOk_of_header {s r : State}
    (h : r = s ∨ (s.ss ≠ .hunt ∧ s.ss ≠ .huntDle ∧ ∃ x, r = raiseFault .escape x s)) :
    r.cnt.frameOk = s.cnt.frameOk := by
  rcases h with rfl | ⟨-, -, x, rfl⟩ <;> rfl

/-- Settles O22: header, content and trailer in turn (`Receiving.run_encodeFrame`). -/
theorem synchronizerRecoversEncodedFrame : Obligations.SynchronizerRecoversEncodedFrame := by
  intro s rest d c a ha hbuf _ hd he hfifo hmoves
  have hrecv : Receiving s (encodeFrame d c a) rest := ⟨hd, he, hfifo, hmoves⟩
  obtain ⟨r, cb, n, hr, hrun⟩ := hrecv.run_encodeFrame ha hbuf
  have hok : r.cnt.frameOk + 1 = s.cnt.frameOk + 1 := congrArg (· + 1) (frameOk_of_header hr)
  have hquiet : s.ss = .hunt ∨ s.ss = .huntDle →
      faultCounters r.cnt = faultCounters s.cnt ∧ r.lastErr = s.lastErr := by
    intro hss
    rcases hr with rfl | ⟨h1, h2, -⟩
    · exact ⟨rfl, rfl⟩
    · exact absurd hss (not_or.2 ⟨h1, h2⟩)
  have hargs : (a ++ s.fArgs.drop a.length).take a.length = a := List.take_left
  rcases hrun with ⟨hsel, hrun⟩ | ⟨u, hsel, hrun⟩
  · refine ⟨_, hrun, rfl, rfl, hargs, hok, rfl, rfl, rfl, rfl, fun v hv => ?_, fun _ => hd, .inr hd, hquiet, rfl⟩
    rw [hsel] at hv
    cases hv
  · refine ⟨_, hrun, rfl, rfl, hargs, hok, rfl, rfl, rfl, rfl, fun v hv => ?_, fun hnone => ?_, .inl rfl, hquiet, rfl⟩
    · rw [hsel] at hv
      cases hv
      exact ⟨rfl, rfl⟩
    · rw [hsel] at hnone
      cases hnone

end Sys2Proof.Machine
end

section
/-! The frame codec (40_framecodec): the checksum under a change of one byte, and the length of a frame and of a reply. -/

namespace Sys2Proof

/-- Settles O5: the checksum is a sum, and the other bytes cancel. -/
theorem checksumFollowsOneByte : Obligations.ChecksumFollowsOneByte := by
  intro xs ys b b'
  have hdiff : checksum (xs ++ b' :: ys) - checksum (xs ++ b :: ys) = b' - b := by
    rw [checksum_append, checksum_append, checksum_cons, checksum_cons]
    bv_omega
  refine ⟨hdiff, fun hne heq => hne ?_⟩
  rw [heq, BitVec.sub_self] at hdiff
  bv_omega

theorem length_encodeFrame (d c : Byte) (a : List Byte) :
    (encodeFrame d c a).length = 7 + a.length + (frameContent d c a).count DLE := by
  rw [encodeFrame_eq, List.length_cons, List.length_cons, List.length_append, stuff_length, frameContent_length]
  simp only [List.length_cons, List.length_nil]
  omega

/-- Settles O4: each `DLE` of the content is stuffed to two bytes (`stuff_length`). -/
theorem encodedFrameLength : Obligations.EncodedFrameLength := length_encodeFrame

/-! ### The reply (40_framecodec R118) -/

/-- The checksum byte of a reply. -/
theorem frameCs_reply (b p : Byte) : frameCs 0x00 0x01 [b, p] = 0x13 + b + p := by
  rw [frameCs_eq, checksum_cons, checksum_cons, checksum_nil]
  bv_omega

theorem count_dle_reply {b : Byte} (hb : b ≠ DLE) (p k : Byte) :
    [0x00, 0x01, b, p, k].count DLE = (if k = DLE then 1 else 0) + (if p = DLE then 1 else 0) := by
  rw [List.count_cons_of_ne (by decide), List.count_cons_of_ne (by decide), List.count_cons_of_ne hb]
  simp only [List.count_cons, List.count_nil, beq_iff_eq, Nat.zero_add]

/-- Of the bytes of a reply only the pending byte and the checksum can be `DLE`, and not both. -/
theorem length_reply {b : Byte} (hb : b ≠ DLE) (hsum : b ≠ 0xED) (p : Byte) :
    (encodeFrame 0x00 0x01 [b, p]).length = if p = 0x10 ∨ p = 0x10 - (0x13 + b) then 10 else 9 := by
  have hcs : frameCs 0x00 0x01 [b, p] = DLE ↔ p = 0x10 - (0x13 + b) := by
    rw [frameCs_reply]
    constructor <;> intro h <;> bv_omega
  have hlen : (encodeFrame 0x00 0x01 [b, p]).length
      = 9 + ((if p = 0x10 - (0x13 + b) then 1 else 0) + (if p = 0x10 then 1 else 0)) := by
    simp only [length_encodeFrame, frameContent, List.cons_append, List.nil_append, count_dle_reply hb, hcs]
    rfl
  rw [hlen]
  by_cases hp : p = 0x10
  · have hk : ¬ p = 0x10 - (0x13 + b) := fun hk => hsum (by bv_omega)
    rw [if_neg hk, if_pos hp, if_pos (.inl hp)]
  · by_cases hk : p = 0x10 - (0x13 + b)
    · rw [if_pos hk, if_neg hp, if_pos (.inr hk)]
    · rw [if_neg hk, if_neg hp, if_neg (not_or.2 ⟨hp, hk⟩)]

/-- Settles O7: the second pending byte of each unit is the one that makes its checksum `DLE`. -/
theorem replyIsNineOrTenBytes : Obligations.ReplyIsNineOrTenBytes := fun p =>
  ⟨length_reply (by decide) (by decide) p, length_reply (by decide) (by decide) p,
    length_reply (by decide) (by decide) p⟩

/-- Settles O1, by evaluation of the decoder. -/
theorem specWordsDecode : Obligations.SpecWordsDecode :=
  ⟨rfl, rfl, rfl, rfl, rfl, rfl, rfl, rfl, rfl⟩

end Sys2Proof
end

section
/-! Every step (44_dispatcher R180, 60_exceptions R222 to R231): it has a next state, it changes `DS` along a row of the
transition table, and it records at most one fault. -/

namespace Sys2Proof.Machine

open Sys2Proof.Spec

/-! ### No step is refused (60_exceptions R225) -/

theorem consumeStep_next (b : Byte) (s : State) : ∃ t, consumeStep b s = .next t := by
  simp only [consumeStep, dispatchFrame]
  split
  · split
    · exact ⟨_, rfl⟩
    · exact exec_next _ _
  · exact ⟨_, rfl⟩

theorem engineStep_next (s : State) : ∃ t, engineStep s = .next t := by
  cases hd : s.ds with
  | stopped | gap | tx => simp only [engineStep, hd, Host.Outcome.next.injEq, exists_eq']
  | exec => rw [engineStep_exec s hd]; exact exec_next _ _
  | recv =>
    simp only [engineStep, hd]
    split
    · split
      · exact ⟨_, rfl⟩
      · exact consumeStep_next _ _
    · exact ⟨_, rfl⟩

theorem step_next (s : State) : ∃ t, step s = .next t := by
  rw [step_eq]
  cases s.nextMove with
  | line v err | time dt | reset => exact ⟨_, rfl⟩
  | engine => exact engineStep_next _
  | host acc => exact exec_next _ _

/-- Settles O9: every state has a next one. -/
theorem runsNeverStop : Obligations.RunsNeverStop := by
  intro s n
  induction n generalizing s with
  | zero => exact ⟨s, rfl⟩
  | succ n ih =>
    obtain ⟨r, hr⟩ := step_next s
    obtain ⟨t, ht⟩ := ih r
    exact ⟨t, (run_succ n s r hr).trans ht⟩

/-! ### The transition table (44_dispatcher R180, R182) -/

/-- Consuming the byte `b` dispatches the frame of the content of `s` to an enabled unit. -/
structure EntersExec (b : Byte) (s t : State) : Prop where
  ds : t.ds = .exec
  ss : s.ss = .accDle
  byte : b = ETX
  frame : ∃ (d c : Byte) (a : List Byte), s.content = [d, c] ++ a ++ [frameCs d c a]
    ∧ t.fDest = d ∧ t.fCmd = c ∧ t.fArgs.take t.fNargs = a ∧ selects s.ctrl d = some t.fUnit
  addressed : t.cnt.addressed = s.cnt.addressed + 1

/-- The synchronizer reports a frame only at the `ETX` that ends a valid content. -/
theorem consume_of_reported {b : Byte} {s : State} (h : (consume b s).2 = true) :
    s.ss = .accDle ∧ b = ETX ∧ ∃ (d c : Byte) (a : List Byte), s.content = [d, c] ++ a ++ [frameCs d c a]
      ∧ consume b s = (withFrameLatched s d c a, true) := by
  rcases consume_cases b s with ⟨m, e, -⟩ | e | ⟨-, x, e⟩ | ⟨c, x, m, -, e⟩ | ⟨hs, rfl, hlen, hvalid, -⟩
  case inr.inr.inr.inr =>
    have hc := content_of_valid s.content hlen hvalid
    exact ⟨hs, rfl, _, _, _, hc, by rw [consume_etx s hs]; exact validate_of_valid hc⟩
  all_goals rw [e] at h; cases h

theorem ds_consume (b : Byte) (s : State) : (consume b s).1.ds = s.ds :=
  congrArg Prod.fst (lineControl_consume b s)

theorem consumeStep_ds {b : Byte} {s t : State} (h : consumeStep b s = .next t) :
    t.ds = s.ds ∨ EntersExec b s t := by
  rcases consumeStep_cases b s t h with ⟨rfl, -⟩ | ⟨hv, ⟨u, hu, rfl⟩ | ⟨-, rfl⟩⟩
  · exact .inl (ds_consume b s)
  · obtain ⟨hs, hb, d, c, a, hc, e⟩ := consume_of_reported hv
    rw [e] at hu ⊢
    exact .inr ⟨rfl, hs, hb, ⟨d, c, a, hc, rfl, rfl, List.take_left, hu⟩, rfl⟩
  · exact .inl (ds_consume b s)

/-- What ENGINE's steps do to `DS`: the rows of the table, each under its condition. -/
theorem engineStep_ds {s t : State} (h : engineStep s = .next t) :
    t.ds = s.ds
    ∨ (s.ds = .stopped ∧ t.ds = .recv ∧ s.ctrlEn = true)
    ∨ (s.ds = .recv ∧ s.ctrlEn = true ∧ ∃ b fifo, s.rxFifo = b :: fifo ∧ EntersExec b { s with rxFifo := fifo } t)
    ∨ ((s.ds = .recv ∨ s.ds = .gap) ∧ t.ds = .stopped ∧ s.ctrlEn = false)
    ∨ (s.ds = .exec ∧ t.ds = .gap)
    ∨ (s.ds = .gap ∧ t.ds = .tx ∧ s.ctrlEn = true ∧ gapElapsed s = true)
    ∨ (s.ds = .tx ∧ t.ds = .recv ∧ s.txLen ≤ s.txPos ∧ replyEnd s ≤ s.now) := by
  rcases engineStep_cases s t h with rfl | ⟨hd, he, rfl⟩ | ⟨hd, he, b, fifo, hf, hc⟩ | ⟨hd, he, rfl⟩ |
    ⟨hd, r, -, rfl⟩ | ⟨hd, he, hg, rfl⟩ | ⟨-, -, rfl⟩ | ⟨hd, hp, hn, rfl⟩
  · exact .inl rfl
  · exact .inr (.inl ⟨hd, rfl, he⟩)
  · rcases consumeStep_ds hc with e | hx
    · exact .inl e
    · exact .inr (.inr (.inl ⟨hd, he, b, fifo, hf, hx⟩))
  · exact .inr (.inr (.inr (.inl ⟨hd, rfl, he⟩)))
  · exact .inr (.inr (.inr (.inr (.inl ⟨hd, rfl⟩))))
  · exact .inr (.inr (.inr (.inr (.inr (.inl ⟨hd, rfl, he, hg⟩)))))
  · exact .inl rfl
  · exact .inr (.inr (.inr (.inr (.inr (.inr ⟨hd, rfl, hp, hn⟩)))))

/-- Only ENGINE and the reset input change `DS`. -/
theorem step_ds {s t : State} (h : step s = .next t) :
    t.ds = s.ds ∨ (s.nextMove = .reset ∧ t.ds = .stopped) ∨ (s.nextMove = .engine ∧ engineStep s.popped = .next t) := by
  rcases step_cases s t h with ⟨v, err, -, rfl⟩ | he | ⟨acc, -, ha⟩ | ⟨dt, -, rfl⟩ | ⟨hm, rfl⟩
  · exact .inl (congrArg Prod.fst (lineControl_arrive v err s.popped))
  · exact .inr (.inr he)
  · exact .inl (congrArg Prod.fst (lineControl_access acc s.popped t ha))
  · exact .inl rfl
  · exact .inr (.inl ⟨hm, rfl⟩)

/-- Settles O24: the rows of `engineStep_ds`, the stop step's once for RECV and once for GAP. -/
theorem dispatchStateTransitions : Obligations.DispatchStateTransitions := by
  intro s t h hne
  rcases step_ds h with e | hreset | ⟨hm, he⟩
  · exact absurd e hne
  · exact .inl hreset
  refine .inr ⟨hm, ?_⟩
  rcases engineStep_ds he with e | hrow | ⟨hd, hen, b, fifo, hf, hx⟩ | ⟨hd | hd, hrow⟩ | hrow | ⟨hd, ht, hen, hg⟩ | hrow
  · exact absurd e hne
  · exact .inl hrow
  · obtain ⟨d, c, a, hc, -, -, -, hsel⟩ := hx.frame
    exact .inr (.inl ⟨hd, hx.ds, hen, hx.ss, fifo, d, c, a, hf.trans (congrArg (· :: fifo) hx.byte), hc, hsel⟩)
  · exact .inr (.inr (.inl ⟨hd, hrow⟩))
  · exact .inr (.inr (.inr (.inr (.inr (.inl ⟨hd, hrow⟩)))))
  · exact .inr (.inr (.inr (.inl hrow)))
  · exact .inr (.inr (.inr (.inr (.inl ⟨hd, ht, hen, of_decide_eq_true hg⟩))))
  · exact .inr (.inr (.inr (.inr (.inr (.inr hrow)))))

/-- Settles O23: of the rows of the table only the consumption step enters EXEC. -/
theorem onlyValidFramesReachExec : Obligations.OnlyValidFramesReachExec := by
  intro s t _ _ h hs ht
  rcases step_ds h with e | ⟨-, e⟩ | ⟨hm, he⟩
  · exact absurd (e.symm.trans ht) hs
  · cases e.symm.trans ht
  rcases engineStep_ds he with e | ⟨-, e, -⟩ | ⟨hd, hen, b, fifo, hf, hx⟩ | ⟨-, e, -⟩ | ⟨hd, -⟩ | ⟨-, e, -⟩ | ⟨-, e, -⟩
  · exact absurd (e.symm.trans ht) hs
  · cases e.symm.trans ht
  · have hhead : s.rxFifo.head? = some b := congrArg List.head? hf
    exact ⟨hm, hd, hen, hx.ss, hhead.trans (congrArg some hx.byte), hx.frame, hx.addressed⟩
  · cases e.symm.trans ht
  · exact absurd hd hs
  · cases e.symm.trans ht
  · cases e.symm.trans ht

/-! ### At most one fault a step (60_exceptions R230, R231) -/

/-- From `s` to `t` at most one fault was recorded, and that one whole. -/
def RecordsAtMostOne (s t : State) : Prop :=
  (faultCounters t.cnt = faultCounters s.cnt ∧ t.lastErr = s.lastErr)
  ∨ ∃ c : Cause, faultCounters t.cnt = faultCounters (s.cnt.countFault c) ∧ t.lastErr.cause = c.code
      ∧ t.events &&& c.event.mask = c.event.mask

theorem recordsAtMostOne_raiseFault (c : Cause) (x : BitVec 16) (s : State) : RecordsAtMostOne s (raiseFault c x s) :=
  .inr ⟨c, rfl, rfl, bitVec_or_and_self _ _⟩

theorem recordsAtMostOne_arrive (v : Byte) (err : Bool) (s : State) : RecordsAtMostOne s (arrive v err s) := by
  rcases arrive_cases v err s with e | ⟨-, -, c, x, e⟩ | ⟨-, -, -, e⟩ <;> rw [e]
  · exact .inl ⟨rfl, rfl⟩
  · exact recordsAtMostOne_raiseFault c x s
  · exact .inl ⟨rfl, rfl⟩

theorem recordsAtMostOne_consume (b : Byte) (s : State) : RecordsAtMostOne s (consume b s).1 := by
  rcases consume_cases b s with ⟨m, e, -⟩ | e | ⟨-, x, e⟩ | ⟨c, x, m, -, e⟩ | ⟨-, -, -, -, e⟩ <;> rw [e]
  case inr.inr.inr.inl => exact recordsAtMostOne_raiseFault c x s
  all_goals exact .inl ⟨rfl, rfl⟩

theorem recordsAtMostOne_consumeStep {b : Byte} {s t : State} (h : consumeStep b s = .next t) :
    RecordsAtMostOne s t := by
  rcases consumeStep_cases b s t h with ⟨rfl, -⟩ | ⟨-, ⟨u, -, rfl⟩ | ⟨-, rfl⟩⟩
  all_goals exact recordsAtMostOne_consume b s

theorem recordsAtMostOne_access {acc : HostAccess} {s t : State} (h : exec (accessInstr acc) s = .next t) :
    RecordsAtMostOne s t := by
  rcases access_cases acc s t h with ⟨v, rfl⟩ | rfl | ⟨x, rfl⟩ | ⟨x, rfl⟩ | ⟨v, rfl⟩ | ⟨v, rfl⟩ | ⟨u, p, v, -, rfl⟩
  case inr.inr.inl => exact recordsAtMostOne_raiseFault .hostAccess x s
  case inr.inr.inr.inl => exact recordsAtMostOne_raiseFault .hostAccess x (hostReturn 0 s)
  case inr.inr.inr.inr.inr.inr => exact .inl ⟨by rw [setPending_cnt], setPending_lastErr u p s⟩
  all_goals exact .inl ⟨rfl, rfl⟩

theorem recordsAtMostOne_command {u v : UnitId} {s r : State} (h : CommandEffect u s r) :
    RecordsAtMostOne s (finishCommand v r) := by
  rw [RecordsAtMostOne, finishCommand_cnt, finishCommand_lastErr, finishCommand_events]
  rcases h.record with ⟨hcnt, herr, -⟩ | ⟨hcnt, herr, hev⟩ | ⟨hcnt, herr, -⟩
  · exact .inl ⟨by rw [hcnt], herr⟩
  · refine .inr ⟨.cmdArg, by rw [hcnt], by rw [herr]; rfl, ?_⟩
    rw [hev, BitVec.or_assoc, BitVec.or_comm _ (cmdEvent v).mask, ← BitVec.or_assoc]
    exact bitVec_or_and_self _ _
  · exact .inl ⟨by rw [hcnt]; rfl, herr⟩

theorem recordsAtMostOne_engineStep {s t : State} (h : engineStep s = .next t) : RecordsAtMostOne s t := by
  rcases engineStep_cases s t h with rfl | ⟨-, -, rfl⟩ | ⟨-, -, b, fifo, -, hc⟩ | ⟨-, -, rfl⟩ | ⟨-, r, heff, rfl⟩ |
    ⟨-, -, -, rfl⟩ | ⟨-, -, rfl⟩ | ⟨-, -, -, rfl⟩
  case inr.inr.inl => exact recordsAtMostOne_consumeStep (s := { s with rxFifo := fifo }) hc
  case inr.inr.inr.inr.inl => exact recordsAtMostOne_command heff
  all_goals exact .inl ⟨rfl, rfl⟩

/-- Settles O16, move by move. -/
theorem stepRecordsAtMostOneFault : Obligations.StepRecordsAtMostOneFault := by
  intro s t hr h
  rcases step_cases s t h with ⟨v, err, -, rfl⟩ | ⟨-, he⟩ | ⟨acc, -, ha⟩ | ⟨dt, -, rfl⟩ | ⟨hm, -⟩
  · exact recordsAtMostOne_arrive v err s.popped
  · exact recordsAtMostOne_engineStep (s := s.popped) he
  · exact recordsAtMostOne_access (s := s.popped) ha
  · exact .inl ⟨rfl, rfl⟩
  · exact absurd hm hr

end Sys2Proof.Machine
end

section
/-! The steps of the gap timer and the transmitter, whole (44_dispatcher R186 to R190), the two frame rows that no EXEC
step runs, and the byte a reply carries. -/

namespace Sys2Proof.Machine

open Sys2Proof.Spec

/-- Settles O26: with `CTRL.EN` clear, ENGINE's step in RECV and in GAP is the stop step. -/
theorem stopStep : Obligations.StopStep := by
  intro s rest hs hd he
  rw [step_cons s .engine rest hs, runMove, engineStep_stop { s with schedule := rest } hd he]
  rfl

/-- Settles O27: with `CTRL.EN` set and the gap over, ENGINE's step in GAP is the reply start step. -/
theorem replyStartStep : Obligations.ReplyStartStep := by
  intro s rest hs hd he hgap
  rw [step_cons s .engine rest hs, runMove,
    engineStep_gap { s with schedule := rest } hd he (decide_eq_true hgap)]
  rfl

/-- `BYTE_NS` is the quotient of 10^10 by BAUD, rounded up. -/
theorem byteNs_bounds (p : Params) :
    10000000000 ≤ byteNs p * p.baud ∧ byteNs p * p.baud < 10000000000 + p.baud := by
  have hpos : 0 < p.baud := Nat.succ_pos _
  have hdiv := Nat.div_add_mod (10000000000 + p.baud - 1) p.baud
  have hmod := Nat.mod_lt (10000000000 + p.baud - 1) hpos
  have hns : byteNs p = (10000000000 + p.baud - 1) / p.baud := rfl
  rw [← hns, Nat.mul_comm] at hdiv
  omega

/-- `s` after the character `v` of its reply, with `rest` to come. -/
def charSent (s : State) (v : Byte) (rest : List Move) : State :=
  { s with
    schedule := rest, txPos := s.txPos + 1
    lineOut := s.lineOut ++ [.char (s.txT0 + s.txPos * byteNs s.par) v] }

theorem step_char {s : State} {rest : List Move} {v : Byte} (hs : EngineNext s rest) (hd : s.ds = .tx)
    (hp : s.txPos < s.txLen) (hv : s.txBuf[s.txPos]? = some v) : step s = .next (charSent s v rest) := by
  have hget : s.txBuf.getD s.txPos 0 = v := by rw [List.getD_eq_getElem?_getD, hv, Option.getD_some]
  rw [step_cons s .engine rest hs, runMove, engineStep_char { s with schedule := rest } hd hp, emitChar, hget]
  rfl

/-- Settles O28: ENGINE's step in TX, while characters are left, emits the next one (`step_char`). -/
theorem characterStep : Obligations.CharacterStep :=
  ⟨byteNs_bounds, fun _ _ _ => step_char⟩

/-- Settles O29: ENGINE's step in TX, once the last character has ended, is the reply end step. -/
theorem replyEndStep : Obligations.ReplyEndStep := by
  intro s rest hs hd hp hn
  rw [step_cons s .engine rest hs, runMove, engineStep_end { s with schedule := rest } hd hp.ge hn]
  rfl

/-- Settles O44: `DISCARD` is the identity, and `ACK` writes over the front of the buffer. -/
theorem discardAndAck : Obligations.DiscardAndAck :=
  ⟨fun d c args s => exec_discard d c args s, fun u p s =>
    ⟨overwrite s.txBuf (encodeFrame 0x00 0x01 [u.ackByte, p]), exec_ack u p s, take_overwrite _ _, List.drop_left⟩⟩

theorem writeKey_par (u : UnitId) (v : Word) (s : State) : (writeKey u v s).par = s.par := by
  rw [writeKey]
  split
  · exact setPending_par u _ s
  · rfl

/-- Settles O57: the second key write leaves its byte pending, whatever was pending, and the command replies with it. -/
theorem lastKeyWriteWins : Obligations.LastKeyWriteWins := by
  intro s v w i h hi
  have hkey : keyByte (writeKey .sq v s).par .sq (w.toNat % 16) = some s.par.keymapSq[w.toNat % 16] := by
    rw [writeKey_par]
    exact Vector.getElem?_eq_getElem h
  have hsecond := writeKey_of_recognized hkey
  obtain ⟨t, hexec, -, hpending, -, -, -, hwire, -⟩ :=
    everyCommandRepliesOnce i .sq (writeKey .sq w (writeKey .sq v s)) hi
  rw [hsecond, pending_setPending] at hwire
  exact ⟨_, _, t, exec_hKeyWrSq v s, exec_hKeyWrSq w _, hexec, hwire, hpending⟩

end Sys2Proof.Machine
end

section
/-! The well-formed units (10_state R38 to R40, R46): every command keeps them, and so does every step. -/

namespace Sys2Proof.Machine

open Sys2Proof.Spec

/-- The three units are as R38 to R40 and R46 describe them. -/
structure UnitsWf (s : State) : Prop where
  keypad : ∀ k : KeypadId, (s.keypad k).Wf k.rows
  spa : s.spa.Wf

/-! ### Reset (10_state R52) -/

theorem inv_none_wf (rows : Nat) : Inv.none.Wf rows where
  region h := absurd h Bool.false_ne_true
  cleared _ := rfl

theorem keypad_reset_wf (k : KeypadId) : (Keypad.reset k).Wf k.rows where
  grid := gridWf_replicate_blankRow k.rows
  inv := inv_none_wf k.rows
  statLen := Nat.zero_le _
  stat := List.length_replicate
  statPad _ hb := List.eq_of_mem_replicate hb

theorem spa_reset_wf : Spa.reset.Wf where
  textLen := .inl rfl
  text := List.length_replicate
  textPad _ hb := List.eq_of_mem_replicate hb

theorem unitsWf_reset : UnitsWf State.reset where
  keypad
    | .sq => keypad_reset_wf .sq
    | .pda => keypad_reset_wf .pda
  spa := spa_reset_wf

/-! ### The shared operations -/

theorem UnitsWf.of_storage_eq {s t : State} (h : UnitsWf s) (e : storage t = storage s) : UnitsWf t := by
  simp only [storage, Prod.mk.injEq] at e
  obtain ⟨hsq, hpda, hspa⟩ := e
  have wf_of_eq {rows : Nat} {x y : Keypad} (hx : x.Wf rows)
      (hxy : ({ y with pending := 0 } : Keypad) = { x with pending := 0 }) : y.Wf rows := by
    have hpad : ({ y with pending := 0 } : Keypad).Wf rows := hxy ▸ { hx with }
    exact { hpad with }
  have hpad : ({ t.spa with pending := 0 } : Spa).Wf := hspa ▸ { h.spa with }
  exact ⟨fun | .sq => wf_of_eq (h.keypad .sq) hsq | .pda => wf_of_eq (h.keypad .pda) hpda, { hpad with }⟩

theorem UnitsWf.setKeypad {s : State} (h : UnitsWf s) (k : KeypadId) {x : Keypad} (hx : x.Wf k.rows) :
    UnitsWf (setKeypad k x s) where
  keypad j := by
    cases k <;> cases j
    · exact hx
    · exact h.keypad .pda
    · exact h.keypad .sq
    · exact hx
  spa := (setKeypad_spa k x s).symm ▸ h.spa

theorem UnitsWf.argFault {s : State} (h : UnitsWf s) : UnitsWf (argFault s) := h.of_storage_eq rfl

theorem UnitsWf.countUnknown {s : State} (h : UnitsWf s) : UnitsWf (countUnknown s) := h.of_storage_eq rfl

/-- The end of an EXEC step writes the pending byte and `SEQ` of its unit, which no invariant of the unit restricts. -/
theorem UnitsWf.finishCommand {s : State} (h : UnitsWf s) (u : UnitId) : UnitsWf (finishCommand u s) where
  keypad k := by cases u <;> cases k <;> exact { h.keypad _ with }
  spa := by cases u <;> exact { h.spa with }

/-! ### The commands of a keypad (42_keypad R143 to R151) -/

theorem UnitsWf.keypadStatus {s : State} (h : UnitsWf s) (k : KeypadId) {args : List Byte}
    (hargs : args.length ≤ 121) : UnitsWf (keypadStatus k args s) :=
  h.setKeypad k { h.keypad k with
    statLen := hargs
    stat := length_zeroPad 121 args hargs
    statPad := zeroPad_drop 121 args }

theorem UnitsWf.keypadClear {s : State} (h : UnitsWf s) (k : KeypadId) : UnitsWf (keypadClear k s) :=
  h.setKeypad k { h.keypad k with grid := gridWf_replicate_blankRow k.rows, inv := inv_none_wf k.rows }

theorem UnitsWf.setDisp {s : State} (h : UnitsWf s) (k : KeypadId) {d : List (List Byte)} (hd : GridWf k.rows d) :
    UnitsWf (Machine.setKeypad k { s.keypad k with disp := d } s) :=
  h.setKeypad k { h.keypad k with grid := hd }

/-- A region inside the display is one that R39 allows. -/
theorem UnitsWf.setInv {s : State} (h : UnitsWf s) (k : KeypadId) {l st en : Byte} (hl : l.toNat < k.rows)
    (hlt : st.toNat < en.toNat) (hle : en.toNat ≤ 16) :
    UnitsWf (Machine.setKeypad k { s.keypad k with inv := ⟨true, l, st, en⟩ } s) :=
  h.setKeypad k { h.keypad k with inv := ⟨fun _ => ⟨hl, hlt, hle⟩, fun hv => Bool.noConfusion hv⟩ }

theorem UnitsWf.keypadWrite {s : State} (h : UnitsWf s) (k : KeypadId) (args : List Byte) :
    UnitsWf (keypadWrite k args s) := by
  cases args with
  | nil => exact h.argFault
  | cons row text =>
    by_cases hr : (rowMap k row).toNat < k.rows
    · rw [keypadWrite_of_lt k row text s hr]
      exact h.setDisp k ((h.keypad k).grid.set _ (lineRow_length text))
    · rw [keypadWrite_of_ge k row text s (Nat.le_of_not_lt hr)]
      exact h.argFault

theorem UnitsWf.keypadInvline {s : State} (h : UnitsWf s) (k : KeypadId) (args : List Byte) :
    UnitsWf (keypadInvline k args s) := by
  cases args with
  | nil => exact h.argFault
  | cons l rest =>
    by_cases hl : l.toNat < k.rows
    · rw [keypadInvline_of_lt k l rest s hl]
      exact h.setInv k hl (by decide) (by decide)
    · rw [keypadInvline_of_ge k l rest s (Nat.le_of_not_lt hl)]
      exact h.argFault

theorem UnitsWf.keypadScroll {s : State} (h : UnitsWf s) (k : KeypadId) (args : List Byte) :
    UnitsWf (keypadScroll k args s) := by
  match args with
  | [] | [_] | [_, _] => exact h.argFault
  | st :: en :: d :: rest =>
    by_cases hd : d = 0x01 ∨ d = 0xFF
    · by_cases hreg : st.toNat < en.toNat ∧ en.toNat ≤ k.rows
      · obtain ⟨hlt, hle⟩ := hreg
        rcases hd with rfl | rfl
        · rw [keypadScroll_down k st en rest s hlt hle]
          exact h.setDisp k ((h.keypad k).grid.scrollDown hlt hle)
        · rw [keypadScroll_up k st en rest s hlt hle]
          exact h.setDisp k ((h.keypad k).grid.scrollUp hlt hle)
      · rw [keypadScroll_bad k st en d rest s hd hreg]
        exact h.argFault
    · obtain ⟨h1, h2⟩ := not_or.1 hd
      rwa [keypadScroll_other k st en d rest s h1 h2]

theorem UnitsWf.keypadInvrange {s : State} (h : UnitsWf s) (k : KeypadId) (args : List Byte) :
    UnitsWf (keypadInvrange k args s) := by
  match args with
  | [] | [_] | [_, _] => exact h.argFault
  | l :: st :: en :: rest =>
    by_cases hbad : k.rows ≤ l.toNat ∨ ¬ (st.toNat < en.toNat ∧ en.toNat ≤ 16)
    · rw [keypadInvrange_bad k l st en rest s hbad]
      exact h.argFault
    · simp only [not_or, not_not, Nat.not_le] at hbad
      obtain ⟨hl, hlt, hle⟩ := hbad
      rw [keypadInvrange_ok k l st en rest s hl hlt hle]
      exact h.setInv k hl hlt hle

/-! ### The commands of the spa unit (43_spa R167, R168) -/

theorem UnitsWf.setText {s : State} (h : UnitsWf s) {t : List Byte}
    (ht : t.length = 0 ∨ t.length = 3 ∨ t.length = 7) : UnitsWf (setText t s) where
  keypad := h.keypad
  spa := {
    textLen := ht
    text := length_zeroPad 7 t (by omega)
    textPad := zeroPad_drop 7 t }

theorem UnitsWf.spaBstatus {s : State} (h : UnitsWf s) (args : List Byte) : UnitsWf (spaBstatus args s) := by
  cases args with
  | nil => exact ⟨h.keypad, { h.spa with }⟩
  | cons m rest => exact ⟨h.keypad, { h.spa with }⟩

theorem UnitsWf.spaTstatus {s : State} (h : UnitsWf s) (args : List Byte) : UnitsWf (spaTstatus args s) := by
  rw [Machine.spaTstatus]
  split
  · next t ht => exact h.setText (.inr (statusText_length s.par args t ht))
  · exact (h.setText (t := []) (.inl rfl)).argFault

/-! ### Every command, and every step -/

theorem UnitsWf.command {s : State} (h : UnitsWf s) {i : Instr} {u : UnitId} (hu : i.unit? = some u)
    (hwf : i.wf = true) : ∃ r, exec i s = .next (Machine.finishCommand u r) ∧ UnitsWf r := by
  cases i <;> simp only [Instr.unit?, reduceCtorEq, Option.some.injEq] at hu <;> subst hu
  case sqProbe | sqHandshake | pdaProbe | pdaHandshake | spaProbe | spaChreq => exact ⟨s, rfl, h⟩
  case sqUnknown | pdaUnknown | spaUnknown => exact ⟨_, rfl, h.countUnknown⟩
  case sqStatus args => exact ⟨_, rfl, h.keypadStatus .sq ((argsFit_iff args).1 hwf)⟩
  case pdaStatus args => exact ⟨_, rfl, h.keypadStatus .pda ((argsFit_iff args).1 hwf)⟩
  case sqWrite args => exact ⟨_, rfl, h.keypadWrite .sq args⟩
  case pdaWrite args => exact ⟨_, rfl, h.keypadWrite .pda args⟩
  case sqInvline args => exact ⟨_, rfl, h.keypadInvline .sq args⟩
  case pdaInvline args => exact ⟨_, rfl, h.keypadInvline .pda args⟩
  case sqClear => exact ⟨_, rfl, h.keypadClear .sq⟩
  case pdaClear => exact ⟨_, rfl, h.keypadClear .pda⟩
  case sqScroll args => exact ⟨_, rfl, h.keypadScroll .sq args⟩
  case pdaScroll args => exact ⟨_, rfl, h.keypadScroll .pda args⟩
  case sqInvrange args => exact ⟨_, rfl, h.keypadInvrange .sq args⟩
  case pdaInvrange args => exact ⟨_, rfl, h.keypadInvrange .pda args⟩
  case spaBstatus args => exact ⟨_, rfl, h.spaBstatus args⟩
  case spaTstatus args => exact ⟨_, rfl, h.spaTstatus args⟩

theorem UnitsWf.exec_command {s t : State} (h : UnitsWf s) {i : Instr} {u : UnitId} (hu : i.unit? = some u)
    (hwf : i.wf = true) (he : exec i s = .next t) : UnitsWf t := by
  obtain ⟨r, hr, hrwf⟩ := h.command hu hwf
  cases hr.symm.trans he
  exact hrwf.finishCommand u

end Sys2Proof.Machine
end

section
/-! The well-formed states (10_state section 7): reset is one, and every step, taken operation by operation, keeps them. -/

namespace Sys2Proof.Machine

open Sys2Proof.Spec

theorem State.Wf.units {s : State} (h : s.Wf) : UnitsWf s where
  keypad
    | .sq => h.sq
    | .pda => h.pda
  spa := h.spa

/-- Settles O12: every list of the reset state has its length by construction, and nothing has begun. -/
theorem resetStateWellFormed : Obligations.ResetStateWellFormed where
  cbuf := List.length_replicate
  clen := Nat.zero_le _
  hunting _ := rfl
  busy _ := rfl
  stopped _ := ⟨rfl, rfl⟩
  fifo := Nat.zero_le _
  txBuf := List.length_replicate
  noReply _ := ⟨rfl, rfl⟩
  reply h := by rcases h with h | h <;> cases h
  gapPos _ := rfl
  txPos := Nat.le_refl _
  driver := drivesInTx_reset
  args := ⟨List.length_replicate, Nat.zero_le _⟩
  addressed h := by rcases h with h | h | h <;> cases h
  gap h := by cases h
  sent _ _ ho := absurd ho List.not_mem_nil
  sending h := by cases h
  sq := unitsWf_reset.keypad .sq
  pda := unitsWf_reset.keypad .pda
  spa := unitsWf_reset.spa

/-! ### Time, arrivals and the host -/

theorem State.Wf.popped {s : State} (h : s.Wf) : s.popped.Wf := { h with }

theorem State.Wf.elapse {s : State} (h : s.Wf) (dt : Nat) : ({ s with now := s.now + dt } : State).Wf :=
  { h with
    gap := fun hd => ⟨(h.gap hd).1, (h.gap hd).2.trans (Nat.le_add_right _ _)⟩
    sent := fun hd o ho => ended_mono o _ _ _ (h.sent hd o ho) (Nat.le_add_right _ _) }

theorem State.Wf.raiseFault {s : State} (h : s.Wf) (c : Cause) (x : BitVec 16) : (raiseFault c x s).Wf := { h with }

theorem State.Wf.arrive {s : State} (h : s.Wf) (v : Byte) (err : Bool) : (arrive v err s).Wf := by
  rcases arrive_cases v err s with e | ⟨-, -, c, x, e⟩ | ⟨hd, -, hroom, e⟩ <;> rw [e]
  · exact h
  · exact h.raiseFault c x
  · have hfifo := h.fifo
    exact { h with
      stopped := fun hs => absurd hs hd
      fifo := by rw [List.length_append, List.length_singleton]; exact Nat.lt_of_le_of_ne hfifo hroom }

theorem State.Wf.setPending {s : State} (h : s.Wf) (u : UnitId) (p : Byte) : (setPending u p s).Wf := by
  cases u
  · exact { h with sq := { h.sq with } }
  · exact { h with pda := { h.pda with } }
  · exact { h with spa := { h.spa with } }

theorem State.Wf.access {s t : State} (h : s.Wf) {acc : HostAccess} (he : exec (accessInstr acc) s = .next t) :
    t.Wf := by
  rcases access_cases acc s t he with ⟨v, rfl⟩ | rfl | ⟨x, rfl⟩ | ⟨x, rfl⟩ | ⟨v, rfl⟩ | ⟨v, rfl⟩ | ⟨u, p, v, -, rfl⟩
  case inr.inr.inr.inr.inr.inr => exact h.setPending u p
  all_goals exact { h with }

/-! ### Reset (70_reset R250, R252) -/

/-- Every entry of a cut trace is whole. -/
theorem ended_of_mem_cutLine {s : State} {o : LineOut} (h : o ∈ s.cutLine) :
    o.ended (byteNs s.par) s.now = true := by
  rcases List.mem_append.1 h with h | h
  · exact (List.mem_filter.1 h).2
  · rw [List.mem_singleton.1 h]
    rfl

theorem State.Wf.applyReset {s : State} (h : s.Wf) : (applyReset s).Wf :=
  { resetStateWellFormed with
    fifo := Nat.zero_le _
    gap := fun hd => by cases hd
    sending := fun hd => by cases hd
    sent := fun _ o ho => by
      by_cases hde : s.de = true
      · have hcut : o ∈ s.cutLine := by rwa [Machine.applyReset, if_pos hde] at ho
        exact ended_of_mem_cutLine (s := s) hcut
      · have hline : o ∈ s.lineOut := by rwa [Machine.applyReset, if_neg hde] at ho
        exact h.sent (fun hd => hde (h.driver.1.2 hd)) o hline }

/-! ### The synchronizer and dispatch -/

theorem State.Wf.synchronizer {s : State} (h : s.Wf) (hd : s.ds = .recv) {m : SyncState} {cb : List Byte} {n : Nat}
    (hcb : cb.length = 124) (hn : n ≤ 124) (hm : m = .hunt ∨ m = .huntDle → n = 0) :
    ({ s with ss := m, cbuf := cb, clen := n } : State).Wf :=
  { h with
    cbuf := hcb
    clen := hn
    hunting := hm
    busy := by simp [hd]
    stopped := by simp [hd] }

theorem State.Wf.withFrameLatched {s : State} (h : s.Wf) (hd : s.ds = .recv) {d c : Byte} {a : List Byte}
    (hc : s.content = [d, c] ++ a ++ [frameCs d c a]) : (withFrameLatched s d c a).Wf := by
  have hlen := length_content h.cbuf h.clen
  have hclen := h.clen
  obtain ⟨hargs, -⟩ := h.args
  rw [hc] at hlen
  simp only [List.length_append, List.length_cons, List.length_nil] at hlen
  have hfit : a.length ≤ 121 := by omega
  exact { h.synchronizer hd h.cbuf (Nat.zero_le _) (fun _ => rfl) with
    args := ⟨(length_overwrite s.fArgs a (hargs ▸ hfit)).trans hargs, hfit⟩
    addressed := by simp [Machine.withFrameLatched, hd]
    gap := by simp [Machine.withFrameLatched, hd] }

theorem State.Wf.consume {s : State} (h : s.Wf) (hd : s.ds = .recv) (b : Byte) : (consume b s).1.Wf := by
  rcases consume_cases b s with ⟨m, e, hm⟩ | e | ⟨hroom, x, e⟩ | ⟨c, x, m, hm, e⟩ | ⟨hs, rfl, hlen, hvalid, -⟩
  · rw [e]
    refine h.synchronizer hd h.cbuf h.clen fun hmh => ?_
    rcases hm with ⟨-, rfl⟩ | ⟨hs, -⟩
    · simp at hmh
    · exact h.hunting hs
  · rw [e]
    exact h.synchronizer hd h.cbuf (Nat.zero_le _) fun _ => rfl
  · rw [e]
    exact h.synchronizer hd (List.length_set.trans h.cbuf) (Nat.lt_of_le_of_ne h.clen hroom) (by simp)
  · rw [e]
    exact (h.raiseFault c x).synchronizer hd h.cbuf (Nat.zero_le _) fun _ => rfl
  · have hc := content_of_valid s.content hlen hvalid
    rw [consume_etx s hs, validate_of_valid hc]
    exact h.withFrameLatched hd hc

/-- Dispatch comes from the hunt, before any reply, and to the unit of the frame's address. -/
theorem State.Wf.accept {s : State} (h : s.Wf) (hd : s.ds = .recv) (hs : s.ss = .hunt) {u : UnitId}
    (hu : s.fDest = u.addr) : (accept u s).Wf :=
  { h with
    busy := fun _ => hs
    stopped := by simp [Machine.accept]
    noReply := fun _ => h.noReply (.inr (.inl hd))
    reply := by simp [Machine.accept]
    gapPos := by simp [Machine.accept]
    driver := by simpa [Machine.accept, hd] using h.driver
    addressed := fun _ => hu
    gap := by simp [Machine.accept]
    sent := fun _ => h.sent (by simp [hd])
    sending := by simp [Machine.accept] }

theorem State.Wf.consumeStep {s t : State} (h : s.Wf) (hd : s.ds = .recv) {b : Byte}
    (hc : consumeStep b s = .next t) : t.Wf := by
  have hcons : (Machine.consume b s).1.Wf := h.consume hd b
  rcases consumeStep_cases b s t hc with ⟨rfl, -⟩ | ⟨hv, ⟨u, hu, rfl⟩ | ⟨-, rfl⟩⟩
  · exact hcons
  · obtain ⟨-, -, d, c, a, -, e⟩ := consume_of_reported hv
    refine hcons.accept ((ds_consume b s).trans hd) (by rw [e]; rfl) (unitFor_some _ _ _ hu).1
  · exact hcons

/-! ### The EXEC step (44_dispatcher R183, R184) -/

theorem length_reply_le (u : UnitId) (p : Byte) : (encodeFrame 0x00 0x01 [u.ackByte, p]).length ≤ 10 := by
  have hsplit : ∀ P : Prop, [Decidable P] → (if P then 10 else 9) ≤ 10 := by intros; split <;> omega
  obtain ⟨hsq, hpda, hspa⟩ := replyIsNineOrTenBytes p
  cases u
  · rw [hsq]; exact hsplit _
  · rw [hpda]; exact hsplit _
  · rw [hspa]; exact hsplit _

theorem CommandEffect.replySent {u : UnitId} {s r : State} (h : CommandEffect u s r) :
    r.cnt.replySent = s.cnt.replySent := by
  rcases h.record with ⟨e, -⟩ | ⟨e, -⟩ | ⟨e, -⟩
  all_goals exact (congrArg Counters.replySent e).trans rfl

/-- `t` is `s` after the EXEC step, so far as the reply and what follows it depend on that step. -/
structure Prepared (s t : State) : Prop where
  ds : t.ds = .gap
  txBuf : t.txBuf = overwrite s.txBuf (wireOf s.fUnit (s.pending s.fUnit))
  length : t.txLen = (wireOf s.fUnit (s.pending s.fUnit)).length
  pos : t.txPos = 0
  pending : t.pending s.fUnit = 0x00
  seq : t.seq s.fUnit = s.seq s.fUnit + 1
  replySent : t.cnt.replySent = s.cnt.replySent
  frame : t = withFrameOf s t

theorem Prepared.buffer {s t : State} (h : Prepared s t) :
    t.txBuf.take t.txLen = wireOf s.fUnit (s.pending s.fUnit) := by
  rw [h.txBuf, h.length, take_overwrite]

theorem latched_unit (s : State) : s.latched.unit? = some s.fUnit := commandOf_unit _ _ _

theorem engineStep_prepares {s : State} (hd : s.ds = .exec) : ∃ t, engineStep s = .next t ∧ Prepared s t := by
  obtain ⟨t, ht, hds, hpending, hseq, hlen, hpos, -, -, -, -, -, -, hframe⟩ :=
    everyCommandRepliesOnce s.latched s.fUnit s (latched_unit s)
  obtain ⟨r, hr, heff⟩ := exec_command s.latched s.fUnit s (latched_unit s)
  cases hr.symm.trans ht
  refine ⟨_, (engineStep_exec s hd).trans ht, hds, ?_, hlen, hpos, hpending, hseq, ?_, hframe⟩
  · rw [finishCommand_txBuf, heff.pending, heff.frame]
    rfl
  · rw [finishCommand_cnt, heff.replySent]

theorem State.Wf.execStep {s t : State} (h : s.Wf) (hd : s.ds = .exec) (he : engineStep s = .next t) : t.Wf := by
  have hwf : s.latched.wf = true := commandOf_wf _ _ _ ((List.length_take_le _ _).trans h.args.2)
  have hunits : UnitsWf t := h.units.exec_command (latched_unit s) hwf ((engineStep_exec s hd).symm.trans he)
  obtain ⟨t', ht', hprep⟩ := engineStep_prepares hd
  cases ht'.symm.trans he
  have hbuf : t.txBuf.length = 10 := by
    rw [hprep.txBuf, length_overwrite _ _ (h.txBuf ▸ length_reply_le _ _), h.txBuf]
  have hreply : HoldsReply (withFrameOf s t) := ⟨s.pending s.fUnit, hprep.buffer, hprep.length⟩
  have hkept : (withFrameOf s t).Wf :=
    { h with
      busy := fun _ => h.busy (.inl hd)
      stopped := by simp [withFrameOf, hprep.ds]
      txBuf := hbuf
      noReply := by simp [withFrameOf, hprep.ds]
      reply := fun _ => hreply
      gapPos := fun _ => hprep.pos
      txPos := hprep.pos.trans_le (Nat.zero_le _)
      driver := by simpa [withFrameOf, hd, hprep.ds] using h.driver
      addressed := fun _ => h.addressed (.inl hd)
      gap := by simp [withFrameOf, hprep.ds]
      sent := fun _ => h.sent (by simp [hd])
      sending := by simp [withFrameOf, hprep.ds]
      sq := hunits.keypad .sq
      pda := hunits.keypad .pda
      spa := hunits.spa }
  rw [hprep.frame]
  exact hkept

/-! ### Start, stop and the transmitter (44_dispatcher R181, R186 to R190) -/

theorem State.Wf.startEngine {s : State} (h : s.Wf) (hd : s.ds = .stopped) : (startEngine s).Wf :=
  { h with
    clen := Nat.zero_le _
    hunting := fun _ => rfl
    busy := fun _ => rfl
    stopped := by simp [Machine.startEngine]
    fifo := Nat.zero_le _
    noReply := fun _ => h.noReply (.inl hd)
    reply := by simp [Machine.startEngine]
    gapPos := by simp [Machine.startEngine]
    driver := by simpa [Machine.startEngine, hd] using h.driver
    addressed := by simp [Machine.startEngine]
    gap := by simp [Machine.startEngine]
    sent := fun _ => h.sent (by simp [hd])
    sending := by simp [Machine.startEngine] }

theorem State.Wf.stopEngine {s : State} (h : s.Wf) (hd : s.ds = .recv ∨ s.ds = .gap) : (stopEngine s).Wf := by
  have htx : s.ds ≠ .tx := by rcases hd with hd | hd <;> simp [hd]
  exact { h with
    clen := Nat.zero_le _
    hunting := fun _ => rfl
    busy := fun _ => rfl
    stopped := fun _ => ⟨rfl, rfl⟩
    fifo := Nat.zero_le _
    noReply := fun _ => ⟨rfl, rfl⟩
    reply := by simp [Machine.stopEngine]
    gapPos := by simp [Machine.stopEngine]
    txPos := Nat.le_refl _
    driver := by simpa [Machine.stopEngine, htx] using h.driver
    addressed := by simp [Machine.stopEngine]
    gap := by simp [Machine.stopEngine]
    sent := fun _ => h.sent htx
    sending := by simp [Machine.stopEngine] }

theorem State.Wf.startReply {s : State} (h : s.Wf) (hd : s.ds = .gap) (hg : gapElapsed s = true) :
    (startReply s).Wf :=
  { h with
    busy := fun _ => h.busy (.inr (.inl hd))
    stopped := by simp [Machine.startReply]
    noReply := by simp [Machine.startReply]
    reply := fun _ => h.reply (.inl hd)
    gapPos := by simp [Machine.startReply]
    driver := by simp [Machine.startReply]
    addressed := fun _ => h.addressed (.inr (.inl hd))
    gap := fun _ => ⟨of_decide_eq_true hg, Nat.le_refl _⟩
    sent := by simp [Machine.startReply]
    sending := fun _ => ⟨s.lineOut, h.sent (by simp [hd]), by simp [Machine.startReply, h.gapPos hd, charsFrom]⟩ }

/-- The reply in the transmit buffer of a well-formed state in GAP or TX is inside the buffer. -/
theorem State.Wf.txLen_le {s : State} (h : s.Wf) (hd : s.ds = .gap ∨ s.ds = .tx) : s.txLen ≤ s.txBuf.length := by
  obtain ⟨p, -, hlen⟩ := h.reply hd
  rw [hlen, h.txBuf]
  exact length_reply_le _ _

/-- The characters emitted so far and the next one. -/
theorem charsFrom_take_succ (t0 byte : Nat) (buf : List Byte) (n : Nat) (hn : n < buf.length) :
    charsFrom t0 byte 0 (buf.take (n + 1))
      = charsFrom t0 byte 0 (buf.take n) ++ [.char (t0 + n * byte) (buf.getD n 0)] := by
  rw [List.take_add_one, charsFrom_append, List.length_take_of_le hn.le, List.getElem?_eq_getElem hn,
    List.getD_eq_getElem _ _ hn, Nat.zero_add]
  rfl

theorem State.Wf.emitChar {s : State} (h : s.Wf) (hd : s.ds = .tx) (hp : s.txPos < s.txLen) : (emitChar s).Wf := by
  obtain ⟨before, hbefore, hline⟩ := h.sending hd
  have hnext := charsFrom_take_succ s.txT0 (byteNs s.par) s.txBuf s.txPos (hp.trans_le (h.txLen_le (.inr hd)))
  exact { h with
    noReply := by simp [Machine.emitChar, hd]
    gapPos := by simp [Machine.emitChar, hd]
    txPos := hp
    sent := fun hne => absurd hd hne
    sending := fun _ => ⟨before, hbefore, by
      simp only [Machine.emitChar, hline, hnext, List.append_assoc, List.cons_append]⟩ }

/-- At the end of a reply its last character, and with it every other one, has ended. -/
theorem State.Wf.ended_of_replyEnd {s : State} (h : s.Wf) (hd : s.ds = .tx) (hp : s.txLen ≤ s.txPos)
    (hn : replyEnd s ≤ s.now) : ∀ o ∈ s.lineOut, o.ended (byteNs s.par) s.now = true := by
  obtain ⟨before, hbefore, hline⟩ := h.sending hd
  have hlen : (s.txBuf.take s.txPos).length = s.txLen := by
    rw [Nat.le_antisymm h.txPos hp]
    exact List.length_take_of_le (h.txLen_le (.inr hd))
  have hchars := charsFrom_ended s.txT0 (byteNs s.par) 0 s.now (s.txBuf.take s.txPos)
    (by rw [hlen, Nat.zero_add]; exact hn)
  intro o ho
  rw [hline, List.mem_append, List.mem_cons] at ho
  rcases ho with ho | rfl | ho
  · exact ended_mono o _ _ _ (hbefore o ho) (h.gap hd).2
  · rfl
  · exact hchars o ho

theorem State.Wf.endReply {s : State} (h : s.Wf) (hd : s.ds = .tx) (hp : s.txLen ≤ s.txPos)
    (hn : replyEnd s ≤ s.now) : (endReply s).Wf := by
  have hended := h.ended_of_replyEnd hd hp hn
  exact { h with
    busy := by simp [Machine.endReply]
    stopped := by simp [Machine.endReply]
    noReply := fun _ => ⟨rfl, rfl⟩
    reply := by simp [Machine.endReply]
    gapPos := by simp [Machine.endReply]
    txPos := Nat.le_refl _
    driver := by simp [Machine.endReply]
    addressed := by simp [Machine.endReply]
    gap := by simp [Machine.endReply]
    sent := fun _ o ho => by
      rcases List.mem_append.1 ho with ho | ho
      · exact hended o ho
      · rw [List.mem_singleton.1 ho]; rfl
    sending := by simp [Machine.endReply] }

/-! ### Every step -/

theorem State.Wf.engineStep {s t : State} (h : s.Wf) (he : engineStep s = .next t) : t.Wf := by
  rcases engineStep_cases s t he with rfl | ⟨hd, -, rfl⟩ | ⟨hd, -, b, fifo, hf, hc⟩ | ⟨hd, -, rfl⟩ | ⟨hd, -⟩ |
    ⟨hd, -, hg, rfl⟩ | ⟨hd, hp, rfl⟩ | ⟨hd, hp, hn, rfl⟩
  · exact h
  · exact h.startEngine hd
  · have hfifo := h.fifo
    rw [hf, List.length_cons] at hfifo
    have hpop : ({ s with rxFifo := fifo } : State).Wf :=
      { h with stopped := by simp [hd], fifo := (Nat.le_succ _).trans hfifo }
    exact hpop.consumeStep hd hc
  · exact h.stopEngine hd
  · exact h.execStep hd he
  · exact h.startReply hd hg
  · exact h.emitChar hd hp
  · exact h.endReply hd hp hn

/-- Settles O13, move by move. -/
theorem everyStepKeepsWellFormed : Obligations.EveryStepKeepsWellFormed := by
  intro s t h hst
  rcases step_cases s t hst with ⟨v, err, -, rfl⟩ | ⟨-, he⟩ | ⟨acc, -, ha⟩ | ⟨dt, -, rfl⟩ | ⟨-, rfl⟩
  · exact h.popped.arrive v err
  · exact h.popped.engineStep he
  · exact h.popped.access ha
  · exact h.popped.elapse dt
  · exact h.popped.applyReset

end Sys2Proof.Machine
end

section
/-! What the block puts on the line (44_dispatcher R186 to R189, 70_reset R252, R262): only the characters of a reply of
the latched unit, all of them without a reset, and those that have ended with one. -/

namespace Sys2Proof.Machine

open Sys2Proof.Spec

/-! ### The words of the statements -/

theorem sentAs_eq_charsFrom (s : State) (k : Nat) (b : List Byte) :
    sentAs s k b = charsFrom s.txT0 (byteNs s.par) k b :=
  (charsFrom_eq_mapIdx _ _ _ _).symm

theorem endsBy_eq_ended (byte now : Nat) : endsBy byte now = LineOut.ended byte now := by
  funext o
  cases o <;> rfl

theorem cutLine_eq (s : State) :
    s.cutLine = (s.lineOut ++ sentAs s s.txPos ((s.txBuf.take s.txLen).drop s.txPos)).filter
        (endsBy (byteNs s.par) s.now) ++ [.driver s.now false] := by
  rw [endsBy_eq_ended, sentAs_eq_charsFrom]
  rfl

/-- Settles O11: `applyReset` is the reset state with the fields of log 8 kept, and `cutLine` is the cut reply. -/
theorem resetInputRestoresResetState : Obligations.ResetInputRestoresResetState := by
  intro s rest hs
  rw [step_cons s _ rest hs, runMove, applyReset, cutLine_eq]
  rfl

/-! ### The reply on the line in a well-formed state -/

/-- In TX the buffer holds the reply of the latched unit with the pending byte `p`, and the trace ends with the driver's
edge and the characters of that reply emitted so far. -/
structure Sending (s : State) (p : Byte) (before : List LineOut) : Prop where
  buffer : s.txBuf.take s.txLen = wireOf s.fUnit p
  length : s.txLen = (wireOf s.fUnit p).length
  line : s.lineOut = before ++ [.driver s.txT0 true] ++ sentAs s 0 ((wireOf s.fUnit p).take s.txPos)
  cut : s.cutLine = before ++ [.driver s.txT0 true]
    ++ (sentAs s 0 (wireOf s.fUnit p)).filter (endsBy (byteNs s.par) s.now) ++ [.driver s.now false]

theorem State.Wf.exists_sending {s : State} (h : s.Wf) (hd : s.ds = .tx) : ∃ p before, Sending s p before := by
  obtain ⟨p, hbuf, hlen⟩ := h.reply (.inr hd)
  obtain ⟨before, hbefore, hline⟩ := h.sending hd
  have hcut := cutLine_of_sending s before hbefore hline h.txPos (h.txLen_le (.inr hd)) (h.gap hd).2
  have htake : s.txBuf.take s.txPos = (wireOf s.fUnit p).take s.txPos := by
    rw [wireOf, ← hbuf, List.take_take, Nat.min_eq_left h.txPos]
  refine ⟨p, before, hbuf, hlen, ?_, ?_⟩
  · rw [hline, htake, sentAs_eq_charsFrom, List.append_assoc]
    rfl
  · rw [hcut, hbuf, sentAs_eq_charsFrom, endsBy_eq_ended]
    simp only [List.append_assoc, List.cons_append, List.nil_append, wireOf]

/-! ### Which steps write the trace -/

/-- What a reply on the line consists of, with `DS`. -/
def transmission (s : State) : DispatchState × List Byte × Nat × UnitId × Nat × Params × List LineOut :=
  (s.ds, s.txBuf, s.txLen, s.fUnit, s.txT0, s.par, s.lineOut)

theorem transmission_arrive (v : Byte) (err : Bool) (s : State) : transmission (arrive v err s) = transmission s := by
  rcases arrive_cases v err s with e | ⟨-, -, c, x, e⟩ | ⟨-, -, -, e⟩ <;> rw [e] <;> rfl

theorem transmission_access {acc : HostAccess} {s t : State} (h : exec (accessInstr acc) s = .next t) :
    transmission t = transmission s := by
  rcases access_cases acc s t h with ⟨v, rfl⟩ | rfl | ⟨x, rfl⟩ | ⟨x, rfl⟩ | ⟨v, rfl⟩ | ⟨v, rfl⟩ | ⟨u, p, v, -, rfl⟩
  case inr.inr.inr.inr.inr.inr => cases u <;> rfl
  all_goals rfl

theorem lineOut_consume (b : Byte) (s : State) : (consume b s).1.lineOut = s.lineOut := by
  rcases consume_cases b s with ⟨m, e, -⟩ | e | ⟨-, x, e⟩ | ⟨c, x, m, -, e⟩ | ⟨-, -, -, -, e⟩ <;> rw [e] <;> rfl

theorem lineOut_consumeStep {b : Byte} {s t : State} (h : consumeStep b s = .next t) : t.lineOut = s.lineOut := by
  rcases consumeStep_cases b s t h with ⟨rfl, -⟩ | ⟨-, ⟨u, -, rfl⟩ | ⟨-, rfl⟩⟩
  all_goals exact lineOut_consume b s

/-- As long as TX lasts, all that the characters of a reply depend on stays. -/
def SameReply (s t : State) : Prop :=
  t.txBuf = s.txBuf ∧ t.txLen = s.txLen ∧ t.fUnit = s.fUnit ∧ t.txT0 = s.txT0 ∧ t.par = s.par

/-- The step puts nothing on the line, and TX neither begins nor ends. -/
def Silent (s t : State) : Prop := t.lineOut = s.lineOut ∧ (t.ds = .tx ↔ s.ds = .tx)

theorem sameReply_and_silent {s t : State} (h : transmission t = transmission s) : SameReply s t ∧ Silent s t := by
  simp only [transmission, Prod.mk.injEq] at h
  obtain ⟨hds, hbuf, hlen, hunit, ht0, hpar, hline⟩ := h
  exact ⟨⟨hbuf, hlen, hunit, ht0, hpar⟩, hline, by rw [hds]⟩

/-- What ENGINE puts on the line: nothing, the driver's edges, or the next character. -/
theorem engineStep_line {s t : State} (h : engineStep s = .next t) :
    (s.ds = .tx → t.ds = .tx → SameReply s t)
    ∧ (Silent s t
      ∨ (s.ds = .gap ∧ t = startReply s)
      ∨ (s.ds = .tx ∧ s.txPos < s.txLen ∧ t = emitChar s)
      ∨ (s.ds = .tx ∧ s.txLen ≤ s.txPos ∧ t = endReply s)) := by
  rcases engineStep_cases s t h with rfl | ⟨hd, -, rfl⟩ | ⟨hd, -, b, fifo, -, hc⟩ | ⟨hd, -, rfl⟩ | ⟨hd, r, heff, rfl⟩ |
    ⟨hd, -, -, rfl⟩ | ⟨hd, hp, rfl⟩ | ⟨hd, hp, -, rfl⟩
  · exact ⟨fun _ _ => ⟨rfl, rfl, rfl, rfl, rfl⟩, .inl ⟨rfl, Iff.rfl⟩⟩
  · exact ⟨by simp [hd], .inl ⟨rfl, by simp [startEngine, hd]⟩⟩
  · refine ⟨by simp [hd], .inl ⟨lineOut_consumeStep (s := { s with rxFifo := fifo }) hc, ?_⟩⟩
    rcases consumeStep_ds hc with e | hx
    · rw [e]
    · simp [hx.ds, hd]
  · have hne : s.ds ≠ .tx := by rcases hd with hd | hd <;> simp [hd]
    exact ⟨fun ht => absurd ht hne, .inl ⟨rfl, by simp [stopEngine, hne]⟩⟩
  · exact ⟨by simp [hd], .inl ⟨by rw [finishCommand_lineOut, heff.frame], by simp [hd]⟩⟩
  · exact ⟨by simp [hd], .inr (.inl ⟨hd, rfl⟩)⟩
  · exact ⟨fun _ _ => ⟨rfl, rfl, rfl, rfl, rfl⟩, .inr (.inr (.inl ⟨hd, hp, rfl⟩))⟩
  · exact ⟨by simp [endReply], .inr (.inr (.inr ⟨hd, hp, rfl⟩))⟩

/-- The character that the next step in TX emits is one of the reply. -/
theorem Sending.next_char {s : State} {p : Byte} {before : List LineOut} (h : Sending s p before)
    (hp : s.txPos < s.txLen) : (wireOf s.fUnit p)[s.txPos]? = some (s.txBuf.getD s.txPos 0) := by
  have hlt : s.txPos < (wireOf s.fUnit p).length := h.length ▸ hp
  have hbuf : s.txBuf[s.txPos]? = (wireOf s.fUnit p)[s.txPos]? := by
    rw [← h.buffer, List.getElem?_take_of_lt hp]
  rw [List.getD_eq_getElem?_getD, hbuf, List.getElem?_eq_getElem hlt, Option.getD_some]

/-- Settles O31: what each move puts on the line; the reset in TX cuts the reply that the invariant describes. -/
theorem onlyRepliesAreSent : Obligations.OnlyRepliesAreSent := by
  intro s t hwf hst
  rcases step_cases s t hst with ⟨v, err, -, rfl⟩ | ⟨hm, he⟩ | ⟨acc, -, ha⟩ | ⟨dt, -, rfl⟩ | ⟨hm, rfl⟩
  case inl =>
    obtain ⟨hsame, hsilent⟩ := sameReply_and_silent (transmission_arrive v err s.popped)
    exact ⟨fun _ _ => hsame, .inl hsilent⟩
  case inr.inl =>
    obtain ⟨hsame, hline⟩ := engineStep_line he
    refine ⟨hsame, ?_⟩
    rcases hline with hsilent | ⟨hd, rfl⟩ | ⟨hd, hp, rfl⟩ | ⟨hd, hp, rfl⟩
    · exact .inl hsilent
    · exact .inr (.inl ⟨hm, hd, rfl, rfl, hwf.gapPos hd, rfl⟩)
    · obtain ⟨p, before, hsend⟩ := hwf.exists_sending hd
      exact .inr (.inr (.inl ⟨hm, hd, hd, rfl, p, _, hsend.buffer, hsend.next_char hp, rfl⟩))
    · exact .inr (.inr (.inr (.inl ⟨hm, hd, rfl, Nat.le_antisymm hwf.txPos hp, rfl⟩)))
  case inr.inr.inl =>
    obtain ⟨hsame, hsilent⟩ := sameReply_and_silent (transmission_access ha)
    exact ⟨fun _ _ => hsame, .inl hsilent⟩
  case inr.inr.inr.inl => exact ⟨fun _ _ => ⟨rfl, rfl, rfl, rfl, rfl⟩, .inl ⟨rfl, Iff.rfl⟩⟩
  case inr.inr.inr.inr =>
    refine ⟨fun _ ht => (by cases ht), ?_⟩
    by_cases hd : s.ds = .tx
    · obtain ⟨p, before, hsend⟩ := hwf.exists_sending hd
      refine .inr (.inr (.inr (.inr ⟨hm, hd, rfl, p, before, hsend.buffer, hsend.line, ?_⟩)))
      exact (if_pos (hwf.driver.1.2 hd)).trans hsend.cut
    · refine .inl ⟨if_neg fun hde => hd (hwf.driver.1.1 hde), ?_⟩
      exact ⟨fun ht => (by cases ht), fun ht => absurd ht hd⟩

/-! ### A reset in TX (70_reset R252, R262) -/

theorem pending_reset (u : UnitId) : State.reset.pending u = 0x00 := by
  cases u <;> rfl

/-- Before the end of the reply its last character has not ended. -/
theorem length_filter_sentAs_lt (s : State) (w : List Byte) (hw : 0 < w.length)
    (hnow : s.now < s.txT0 + w.length * byteNs s.par) :
    ((sentAs s 0 w).filter (endsBy (byteNs s.par) s.now)).length < w.length := by
  have hlen : (sentAs s 0 w).length = w.length := List.length_mapIdx
  rw [← hlen]
  refine List.length_filter_lt_length_iff_exists.2 ⟨.char (s.txT0 + (0 + (w.length - 1)) * byteNs s.par)
    (w[w.length - 1]'(by omega)), List.mem_mapIdx.2 ⟨w.length - 1, by omega, rfl⟩, ?_⟩
  have hlast : (w.length - 1) * byteNs s.par + byteNs s.par = w.length * byteNs s.par := by
    rw [← Nat.succ_mul, Nat.succ_eq_add_one, Nat.sub_add_cancel hw]
  rw [endsBy, Nat.zero_add]
  simp only [decide_eq_true_eq]
  omega

/-- Settles O58: the invariant gives the reply on the line, and the reset cuts it. -/
theorem resetCutsTheReply : Obligations.ResetCutsTheReply := by
  intro s rest hwf hd hs
  obtain ⟨p, before, hsend⟩ := hwf.exists_sending hd
  have hwire : 0 < (wireOf s.fUnit p).length := by
    rw [wireOf, encodeFrame_eq]
    exact Nat.succ_pos _
  refine ⟨applyReset { s with schedule := rest }, p, before, step_cons s _ rest hs, rfl, rfl, rfl,
    pending_reset s.fUnit, hsend.buffer, hsend.line, ?_, length_filter_sentAs_lt s _ hwire⟩
  exact (if_pos (hwf.driver.1.2 hd)).trans hsend.cut

/-! ### A whole reply (44_dispatcher R183 to R189, R194) -/

/-- `s` after `n` more characters of its reply, the last of them the reply's last, with `rest` to come. -/
def emitted (s : State) (n : Nat) (rest : List Move) : State :=
  { s with schedule := rest, txPos := s.txPos + n, lineOut := s.lineOut ++ s.unsent }

theorem unsent_of_done {s : State} (h : s.txLen ≤ s.txPos) : s.unsent = [] := by
  rw [State.unsent, List.drop_eq_nil_of_le ((List.length_take_le _ _).trans h), charsFrom]

theorem unsent_cons {s : State} (hp : s.txPos < s.txLen) (hlen : s.txLen ≤ s.txBuf.length) :
    s.unsent = .char (s.txT0 + s.txPos * byteNs s.par) (s.txBuf[s.txPos]'(hp.trans_le hlen))
      :: ({ s with txPos := s.txPos + 1 } : State).unsent := by
  have hbuf : s.txPos < (s.txBuf.take s.txLen).length := by rwa [List.length_take_of_le hlen]
  rw [State.unsent, List.drop_eq_getElem_cons hbuf, charsFrom, List.getElem_take]
  rfl

/-- ENGINE's moves in TX emit the characters that are left, one a move. -/
theorem run_chars (n : Nat) {s : State} {rest : List Move} (hs : s.schedule = List.replicate n .engine ++ rest)
    (hd : s.ds = .tx) (hn : s.txPos + n = s.txLen) (hlen : s.txLen ≤ s.txBuf.length) :
    Host.Core.run core n s = .next (emitted s n rest) := by
  induction n generalizing s with
  | zero =>
    obtain rfl : s.schedule = rest := hs
    rw [emitted, unsent_of_done hn.ge, List.append_nil]
    rfl
  | succ n ih =>
    have hp : s.txPos < s.txLen := by omega
    have hchar := step_char (rest := List.replicate n .engine ++ rest) hs hd hp
      (List.getElem?_eq_getElem (hp.trans_le hlen))
    have hrest := ih (s := charSent s (s.txBuf[s.txPos]'(hp.trans_le hlen)) (List.replicate n .engine ++ rest)) rfl hd
      ((Nat.succ_add_eq_add_succ s.txPos n).trans hn) hlen
    refine (run_succ n s _ hchar).trans (hrest.trans ?_)
    rw [emitted, emitted, unsent_cons hp hlen, List.append_cons, Nat.add_comm n 1, ← Nat.add_assoc]
    rfl

/-- `s` after `dt` nanoseconds. -/
def waited (s : State) (dt : Nat) (rest : List Move) : State := { s with schedule := rest, now := s.now + dt }

theorem step_wait {s : State} {dt : Nat} {rest : List Move} (hs : s.schedule = .time dt :: rest) :
    step s = .next (waited s dt rest) :=
  step_cons s _ rest hs

/-- `s` after a wait of `d1` and the reply start step. -/
def replyStarted (s : State) (d1 : Nat) (rest : List Move) : State :=
  { s with
    schedule := rest, now := s.now + d1, txT0 := s.now + d1, de := true, reN := true, ds := .tx
    lineOut := s.lineOut ++ [.driver (s.now + d1) true] }

theorem run_start {s : State} {d1 : Nat} {rest : List Move} (hd : s.ds = .gap) (hen : s.ctrl.getLsbD 0 = true)
    (hgap : s.tRef + 4000000 ≤ s.now + d1) (hs : s.schedule = .time d1 :: .engine :: rest) :
    Host.Core.run core 2 s = .next (replyStarted s d1 rest) :=
  (run_succ 1 s _ (step_wait hs)).trans
    (run_succ 0 _ _ (replyStartStep (waited s d1 (.engine :: rest)) rest rfl hd hen hgap))

/-- `s` after the characters of its reply, a wait of `d2` and the reply end step. -/
def replyFinished (s : State) (d2 : Nat) (rest : List Move) : State :=
  { s with
    schedule := rest, now := s.now + d2, de := false, reN := false, txLen := 0, txPos := 0
    cnt := { s.cnt with replySent := s.cnt.replySent + 1 }, events := s.events ||| 0x800#12, ds := .recv
    lineOut := s.lineOut ++ s.unsent ++ [.driver (s.now + d2) false] }

theorem run_finish {s : State} {d2 : Nat} {rest : List Move} (hd : s.ds = .tx) (hpos : s.txPos = 0)
    (hlen : s.txLen ≤ s.txBuf.length) (hwait : replyEnd s ≤ s.now + d2)
    (hs : s.schedule = List.replicate s.txLen .engine ++ .time d2 :: .engine :: rest) :
    Host.Core.run core (s.txLen + 2) s = .next (replyFinished s d2 rest) := by
  have hall : s.txPos + s.txLen = s.txLen := by rw [hpos, Nat.zero_add]
  have hchars := run_chars s.txLen hs hd hall hlen
  have hwaited := step_wait (s := emitted s s.txLen (.time d2 :: .engine :: rest)) rfl
  have hend := replyEndStep (waited (emitted s s.txLen (.time d2 :: .engine :: rest)) d2 (.engine :: rest)) rest rfl hd
    hall hwait
  exact (run_add _ _ s _ hchars).trans ((run_succ 1 _ _ hwaited).trans (run_succ 0 _ _ hend))

/-- The moves of one reply of `n` bytes after the EXEC step and the start step. -/
def charMoves (n d2 : Nat) (rest : List Move) : List Move :=
  List.replicate n .engine ++ .time d2 :: .engine :: rest

/-- Settles O32: the EXEC step prepares the reply, and the named moves start it, send it and end it. -/
theorem addressedFrameGetsOneReply : Obligations.AddressedFrameGetsOneReply := by
  intro s d1 d2 rest hd hen hgap wire hwait hs
  have hmoves : EngineNext s
      (.time d1 :: .engine :: charMoves wire.length d2 rest) := by
    rw [EngineNext, hs, charMoves]
    simp
  obtain ⟨t, hexec, hprep⟩ := engineStep_prepares (s := { s with schedule := s.schedule.tail }) hd
  rw [hmoves, List.tail_cons] at hexec hprep
  have hlen : t.txLen = wire.length := hprep.length
  have hctrl : t.ctrl = s.ctrl := by rw [hprep.frame]; rfl
  have href : t.tRef = s.tRef := by rw [hprep.frame]; rfl
  have hnow : t.now = s.now := by rw [hprep.frame]; rfl
  have hpar : t.par = s.par := by rw [hprep.frame]; rfl
  have hline : t.lineOut = s.lineOut := by rw [hprep.frame]; rfl
  have hsched : t.schedule
      = .time d1 :: .engine :: charMoves t.txLen d2 rest := by
    rw [hlen, hprep.frame]; rfl
  have hbuf : t.txLen ≤ t.txBuf.length := by
    rw [hprep.length, hprep.txBuf, overwrite, List.length_append]
    exact Nat.le_add_right _ _
  have hstart := run_start hprep.ds (hctrl ▸ hen) (by rw [href, hnow]; exact hgap) hsched
  have hfinish := run_finish (s := replyStarted t d1 (charMoves t.txLen d2 rest)) (d2 := d2) (rest := rest) rfl hprep.pos hbuf
    (by rw [← hlen, ← hpar] at hwait; exact Nat.add_le_add_left hwait _) rfl
  refine ⟨replyFinished (replyStarted t d1 (charMoves t.txLen d2 rest)) d2 rest, ?run, rfl, rfl, rfl,
    congrArg (· + 1) hprep.replySent, hprep.pending, hprep.seq, ?line⟩
  case run =>
    rw [← hlen, show t.txLen + 5 = (2 + (t.txLen + 2)) + 1 by omega]
    exact (run_succ _ s t ((step_cons s _ _ hmoves).trans hexec)).trans ((run_add 2 _ t _ hstart).trans hfinish)
  case line =>
    have hunsent : (replyStarted t d1 (charMoves t.txLen d2 rest)).unsent
        = wire.mapIdx fun n v => LineOut.char (s.now + d1 + n * byteNs s.par) v := by
      rw [State.unsent, replyStarted, hprep.pos, hprep.buffer, List.drop_zero, charsFrom_eq_mapIdx]
      simp only [Nat.zero_add, hnow, hpar]
      rfl
    rw [replyFinished, hunsent, replyStarted, hline, hnow]

end Sys2Proof.Machine
end

section
/-! The spa's text status (43_spa R168): the text, branch by branch, and the command that shows it. -/

namespace Sys2Proof.Machine

open Sys2Proof.Spec

theorem matchAt_iff_matches (args : List Byte) (off : Nat) (pat : List Byte) :
    matchAt args off pat = true ↔ Matches args off pat :=
  matchAt_iff args off pat

theorem not_matchAt {args : List Byte} {off : Nat} {pat : List Byte} (h : ¬ Matches args off pat) :
    ¬ matchAt args off pat = true :=
  fun hm => h ((matchAt_iff_matches args off pat).1 hm)

theorem length_le_of_matches {args : List Byte} {off : Nat} {pat : List Byte} (h : Matches args off pat) :
    off + pat.length ≤ args.length := by
  obtain ⟨before, after, rfl, rfl⟩ := h
  simp only [List.length_append]
  omega

theorem take_drop_of_matches {args : List Byte} {off : Nat} {pat : List Byte} (h : Matches args off pat) :
    (args.drop off).take pat.length = pat := by
  obtain ⟨before, after, rfl, rfl⟩ := h
  rw [List.append_assoc, List.drop_left, List.take_left]

/-! ### The text, in the order of R168 -/

theorem statusText_off {p : Params} {args : List Byte} (h : Matches args p.spaPwroffOff pwrOff) :
    statusText p args = some pwrOffText :=
  if_pos ((matchAt_iff_matches _ _ _).2 h)

theorem statusText_short {p : Params} {args : List Byte} (hoff : ¬ Matches args p.spaPwroffOff pwrOff)
    (h : args.length < p.spaTxtOff + 3) : statusText p args = none := by
  rw [statusText, if_neg (not_matchAt hoff), if_pos h]

/-- What is left to decide when the power is on and the text is `[x, y, z]`. -/
theorem statusText_shown {p : Params} {args : List Byte} {x y z : Byte}
    (hoff : ¬ Matches args p.spaPwroffOff pwrOff) (h : Matches args p.spaTxtOff [x, y, z]) :
    statusText p args =
      if [x, y, z] = zeroFF then some offH2o
      else if matchAt args p.spaSetOff p.spaSetMark.bytes then some ([x, y, z] ++ setSuffix)
      else if matchAt args p.spaAirOff p.spaAirMark.bytes then some ([x, y, z] ++ airSuffix)
      else if matchAt args p.spaH2oOff p.spaH2oMark.bytes then some ([x, y, z] ++ h2oSuffix)
      else some [x, y, z] := by
  have hlen : p.spaTxtOff + 3 ≤ args.length := length_le_of_matches h
  have htake : (args.drop p.spaTxtOff).take 3 = [x, y, z] := take_drop_of_matches h
  rw [statusText, if_neg (not_matchAt hoff), if_neg (Nat.not_lt.2 hlen)]
  simp only [htake]

/-! ### The command -/

theorem exec_textStatus_of_some {s : State} {args t : List Byte} (h : statusText s.par args = some t) :
    exec (.spaTstatus args) s = .next (ackedSpa { s with
      spa := { s.spa with textLen := t.length, text := t ++ List.replicate (7 - t.length) 0x00 } }) := by
  rw [exec_spaTstatus, spaTstatus, h, finishCommand_eq_ackedSpa]
  rfl

theorem exec_textStatus_of_none {s : State} {args : List Byte} (h : statusText s.par args = none) :
    exec (.spaTstatus args) s = .next (ackedSpa (argFaulted { s with
      spa := { s.spa with textLen := 0, text := List.replicate 7 0x00 } })) := by
  rw [exec_spaTstatus, spaTstatus, h, finishCommand_eq_ackedSpa]
  rfl

/-- Settles O43, along the branches of `statusText`. -/
theorem textStatusDecodes : Obligations.TextStatusDecodes := by
  intro s args
  refine ⟨rfl, fun hoff => exec_textStatus_of_some (statusText_off hoff),
    fun hoff hshort => exec_textStatus_of_none (statusText_short hoff hshort), fun x y z hoff htext => ?_⟩
  have hshown := statusText_shown hoff htext
  refine ⟨fun hzero => exec_textStatus_of_some (hshown.trans (if_pos hzero)), fun hzero => ?_⟩
  rw [if_neg (show ¬ [x, y, z] = zeroFF from hzero)] at hshown
  refine ⟨fun hset => ?set, fun hset hair => ?air, fun hset hair hh2o => ?h2o, fun hset hair hh2o => ?plain⟩
  case set =>
    rw [if_pos ((matchAt_iff_matches _ _ _).2 hset)] at hshown
    exact exec_textStatus_of_some hshown
  case air =>
    rw [if_neg (not_matchAt hset), if_pos ((matchAt_iff_matches _ _ _).2 hair)] at hshown
    exact exec_textStatus_of_some hshown
  case h2o =>
    rw [if_neg (not_matchAt hset), if_neg (not_matchAt hair), if_pos ((matchAt_iff_matches _ _ _).2 hh2o)] at hshown
    exact exec_textStatus_of_some hshown
  case plain =>
    rw [if_neg (not_matchAt hset), if_neg (not_matchAt hair), if_neg (not_matchAt hh2o)] at hshown
    exact exec_textStatus_of_some hshown

end Sys2Proof.Machine
end

section
/-! The snapshot protocol (20_memory R83): `SEQ_u` counts the EXEC steps of a unit, so an unchanged `SEQ_u` means that
there was none, and then nothing that only EXEC steps write has changed. -/

namespace Sys2Proof.Machine

open Sys2Proof.Spec

/-! ### Runs without a reset -/

theorem schedule_arrive (v : Byte) (err : Bool) (s : State) : (arrive v err s).schedule = s.schedule := by
  rcases arrive_cases v err s with e | ⟨-, -, c, x, e⟩ | ⟨-, -, -, e⟩
  all_goals simp only [e, raiseFault_schedule]

theorem schedule_consume (b : Byte) (s : State) : (consume b s).1.schedule = s.schedule := by
  rcases consume_cases b s with ⟨m, e, -⟩ | e | ⟨-, x, e⟩ | ⟨c, x, m, -, e⟩ | ⟨-, -, -, -, e⟩ <;> rw [e] <;> rfl

theorem schedule_consumeStep {b : Byte} {s t : State} (h : consumeStep b s = .next t) : t.schedule = s.schedule := by
  rcases consumeStep_cases b s t h with ⟨rfl, -⟩ | ⟨-, ⟨u, -, rfl⟩ | ⟨-, rfl⟩⟩
  all_goals exact schedule_consume b s

theorem schedule_access {acc : HostAccess} {s t : State} (h : exec (accessInstr acc) s = .next t) :
    t.schedule = s.schedule := by
  rcases access_cases acc s t h with ⟨v, rfl⟩ | rfl | ⟨x, rfl⟩ | ⟨x, rfl⟩ | ⟨v, rfl⟩ | ⟨v, rfl⟩ | ⟨u, p, v, -, rfl⟩
  case inr.inr.inr.inr.inr.inr => exact setPending_schedule u p s
  all_goals rfl

theorem schedule_engineStep {s t : State} (h : engineStep s = .next t) : t.schedule = s.schedule := by
  rcases engineStep_cases s t h with rfl | ⟨-, -, rfl⟩ | ⟨-, -, b, rest, -, hb⟩ | ⟨-, -, rfl⟩ | ⟨-, r, heff, rfl⟩ |
    ⟨-, -, -, rfl⟩ | ⟨-, -, rfl⟩ | ⟨-, -, -, rfl⟩
  case inr.inr.inl => exact schedule_consumeStep (s := { s with rxFifo := rest }) hb
  case inr.inr.inr.inr.inl => rw [finishCommand_schedule, heff.frame]
  all_goals rfl

/-- A step takes its move off the schedule and puts none on it. -/
theorem schedule_step {s t : State} (h : step s = .next t) : t.schedule = s.schedule.tail := by
  rcases step_cases s t h with ⟨v, err, -, rfl⟩ | ⟨-, he⟩ | ⟨acc, -, ha⟩ | ⟨dt, -, rfl⟩ | ⟨-, rfl⟩
  · exact schedule_arrive v err s.popped
  · exact schedule_engineStep he
  · exact schedule_access ha
  · rfl
  · rfl

/-- The block's own choice for an empty schedule is no reset. -/
theorem idleMove_ne_reset (s : State) : idleMove s ≠ .reset := by
  rw [idleMove]
  split <;> simp

theorem nextMove_ne_reset {s : State} (h : Move.reset ∉ s.schedule) : s.nextMove ≠ .reset := by
  rw [State.nextMove]
  cases hs : s.schedule with
  | nil => exact idleMove_ne_reset s
  | cons m rest => exact fun hm => h (hs ▸ hm ▸ List.mem_cons_self)

theorem reset_not_mem_step {s t : State} (h : step s = .next t) (hr : Move.reset ∉ s.schedule) :
    Move.reset ∉ t.schedule :=
  fun ht => hr (List.mem_of_mem_tail (schedule_step h ▸ ht))

/-! ### The storage of one unit -/

/-- The storage of unit `u` that only EXEC steps write is the same. -/
structure UnitKept (u : UnitId) (s t : State) : Prop where
  sq : u = .sq → (storage t).1 = (storage s).1
  pda : u = .pda → (storage t).2.1 = (storage s).2.1
  spa : u = .spa → (storage t).2.2 = (storage s).2.2

theorem UnitKept.of_storage {u : UnitId} {s t : State} (h : storage t = storage s) : UnitKept u s t where
  sq _ := by rw [h]
  pda _ := by rw [h]
  spa _ := by rw [h]

theorem UnitKept.trans {u : UnitId} {s r t : State} (h : UnitKept u s r) (h' : UnitKept u r t) : UnitKept u s t where
  sq hu := (h'.sq hu).trans (h.sq hu)
  pda hu := (h'.pda hu).trans (h.pda hu)
  spa hu := (h'.spa hu).trans (h.spa hu)

/-- The EXEC step of another unit leaves the whole of unit `u`. -/
theorem unitKept_exec_of_ne {u : UnitId} {s t : State} (hne : s.fUnit ≠ u) (h : exec s.latched s = .next t) :
    UnitKept u s t := by
  obtain ⟨r, hr, -, -, -, -, -, -, -, -, hsq, hpda, hspa, -⟩ :=
    everyCommandRepliesOnce s.latched s.fUnit s (latched_unit s)
  cases hr.symm.trans h
  refine ⟨fun hu => ?_, fun hu => ?_, fun hu => ?_⟩ <;> subst hu
  · simp only [storage, hsq hne]
  · simp only [storage, hpda hne]
  · simp only [storage, hspa hne]

/-- The next step is the EXEC step of unit `u`. -/
def ExecsNext (u : UnitId) (s : State) : Prop := ExecNext s ∧ s.fUnit = u

theorem unitKept_step {u : UnitId} {s t : State} (h : step s = .next t) (hr : s.nextMove ≠ .reset)
    (hx : ¬ ExecsNext u s) : UnitKept u s t := by
  rcases step_units h with ⟨hm, -⟩ | ⟨hen, he⟩ | ⟨-, hstore⟩
  · exact absurd hm hr
  · have hpop : UnitKept u s s.popped := .of_storage rfl
    exact hpop.trans (unitKept_exec_of_ne (fun hu => hx ⟨hen, hu⟩) he)
  · exact .of_storage hstore

/-! ### Counting the EXEC steps of a run -/

/-- None of the first `n` steps from `s` is an EXEC step of unit `u`. -/
def NoExec (u : UnitId) (n : Nat) (s : State) : Prop :=
  ∀ k m, k < n → Host.Core.run core k s = .next m → ¬ ExecsNext u m

theorem noExec_succ {u : UnitId} {n : Nat} {s r : State} (hs : step s = .next r) (hx : ¬ ExecsNext u s)
    (h : NoExec u n r) : NoExec u (n + 1) s := by
  intro k m hk hm
  cases k with
  | zero =>
    cases (run_zero s).symm.trans hm
    exact hx
  | succ k => exact h k m (Nat.lt_of_succ_lt_succ hk) ((run_succ k s r hs).symm.trans hm)

/-- `SEQ_u` moves by the number `k` of EXEC steps of unit `u` in a run; where that is 0, the unit is kept. -/
theorem seq_run (u : UnitId) (n : Nat) {s t : State} (hr : Move.reset ∉ s.schedule)
    (h : Host.Core.run core n s = .next t) :
    ∃ k, k ≤ n ∧ t.seq u = s.seq u + BitVec.ofNat 32 k ∧ (k = 0 → NoExec u n s ∧ UnitKept u s t) := by
  induction n generalizing s with
  | zero =>
    cases (run_zero s).symm.trans h
    exact ⟨0, Nat.le_refl 0, (BitVec.add_zero _).symm,
      fun _ => ⟨fun k _ hk => absurd hk (Nat.not_lt_zero k), .of_storage rfl⟩⟩
  | succ n ih =>
    obtain ⟨r, hs⟩ := step_next s
    have hmove := nextMove_ne_reset hr
    obtain ⟨k, hk, hseq, hkept⟩ := ih (reset_not_mem_step hs hr) ((run_succ n s r hs).symm.trans h)
    obtain ⟨hexec, hother⟩ := sequenceCountsExecSteps.2 s r u hs hmove
    by_cases hx : ExecsNext u s
    · refine ⟨k + 1, Nat.succ_le_succ hk, ?_, fun h0 => absurd h0 (Nat.succ_ne_zero k)⟩
      rw [hseq, hexec hx, BitVec.add_assoc, Nat.add_comm k 1, BitVec.ofNat_add]
      rfl
    · refine ⟨k, Nat.le_succ_of_le hk, by rw [hseq, hother hx], fun h0 => ?_⟩
      obtain ⟨hno, hrest⟩ := hkept h0
      exact ⟨noExec_succ hs hx hno, (unitKept_step hs hmove hx).trans hrest⟩

/-- Settles O55: fewer than `2 ^ 32` EXEC steps cannot bring `SEQ_u` round to where it was. -/
theorem sameSequenceSameSnapshot : Obligations.SameSequenceSameSnapshot := by
  intro u n s t hn hr hrun hsame
  obtain ⟨k, hk, hseq, hkept⟩ := seq_run u n hr hrun
  have hzero : k = 0 := by
    have hnat := congrArg BitVec.toNat (hsame.symm.trans hseq)
    rw [BitVec.toNat_add, BitVec.toNat_ofNat] at hnat
    have hlt := (s.seq u).isLt
    omega
  obtain ⟨hno, hstore⟩ := hkept hzero
  exact ⟨hno, hstore.sq, hstore.pda, hstore.spa⟩

end Sys2Proof.Machine
end

section
/-! After dispatch the unit enables play no part (44_dispatcher R191): no command reads `CTRL`, and of `CTRL` the gap reads
only `EN`. -/

namespace Sys2Proof.Machine

open Sys2Proof.Spec

/-- `s` with `CTRL` replaced. -/
def withCtrl (c : BitVec 4) (s : State) : State := { s with ctrl := c }

/-- `f` neither reads nor writes `CTRL`. -/
def CtrlBlind (f : State → State) : Prop := ∀ c s, f (withCtrl c s) = withCtrl c (f s)

theorem CtrlBlind.comp {f g : State → State} (hf : CtrlBlind f) (hg : CtrlBlind g) : CtrlBlind fun s => f (g s) :=
  fun c s => (congrArg f (hg c s)).trans (hf c (g s))

/-! ### What the commands are made of -/

theorem ctrlBlind_id : CtrlBlind fun s => s := fun _ _ => rfl

theorem ctrlBlind_argFault : CtrlBlind argFault := fun _ _ => rfl

theorem ctrlBlind_countUnknown : CtrlBlind countUnknown := fun _ _ => rfl

theorem ctrlBlind_finishCommand (u : UnitId) : CtrlBlind (finishCommand u) := by
  intro c s
  cases u <;> rfl

/-- A command that changes its keypad unit by `f`. -/
theorem ctrlBlind_updateKeypad (k : KeypadId) (f : Keypad → Keypad) :
    CtrlBlind fun s => setKeypad k (f (s.keypad k)) s := by
  intro c s
  cases k <;> rfl

/-! ### The commands (42_keypad R143 to R151, 43_spa R167, R168) -/

theorem ctrlBlind_keypadStatus (k : KeypadId) (args : List Byte) : CtrlBlind (keypadStatus k args) :=
  ctrlBlind_updateKeypad k fun x => { x with kstatLen := args.length, kstat := zeroPad Config.maxArgs args }

theorem ctrlBlind_keypadClear (k : KeypadId) : CtrlBlind (keypadClear k) :=
  ctrlBlind_updateKeypad k fun x => { x with disp := List.replicate k.rows blankRow, inv := Inv.none }

theorem ctrlBlind_keypadWrite (k : KeypadId) (args : List Byte) : CtrlBlind (keypadWrite k args) := by
  intro c s
  cases args with
  | nil => exact ctrlBlind_argFault c s
  | cons row text =>
    by_cases hr : (rowMap k row).toNat < k.rows
    · rw [keypadWrite_of_lt k row text _ hr, keypadWrite_of_lt k row text _ hr]
      exact ctrlBlind_updateKeypad k (fun x => { x with disp := x.disp.set (rowMap k row).toNat (lineRow text) }) c s
    · rw [keypadWrite_of_ge k row text _ (Nat.le_of_not_lt hr), keypadWrite_of_ge k row text _ (Nat.le_of_not_lt hr)]
      exact ctrlBlind_argFault c s

theorem ctrlBlind_keypadInvline (k : KeypadId) (args : List Byte) : CtrlBlind (keypadInvline k args) := by
  intro c s
  cases args with
  | nil => exact ctrlBlind_argFault c s
  | cons l rest =>
    by_cases hl : l.toNat < k.rows
    · rw [keypadInvline_of_lt k l rest _ hl, keypadInvline_of_lt k l rest _ hl]
      exact ctrlBlind_updateKeypad k (fun x => { x with inv := ⟨true, l, 0, 16⟩ }) c s
    · rw [keypadInvline_of_ge k l rest _ (Nat.le_of_not_lt hl), keypadInvline_of_ge k l rest _ (Nat.le_of_not_lt hl)]
      exact ctrlBlind_argFault c s

theorem ctrlBlind_keypadScroll (k : KeypadId) (args : List Byte) : CtrlBlind (keypadScroll k args) := by
  intro c s
  match args with
  | [] | [_] | [_, _] => exact ctrlBlind_argFault c s
  | st :: en :: d :: rest =>
    by_cases hd : d = 0x01 ∨ d = 0xFF
    · by_cases hreg : st.toNat < en.toNat ∧ en.toNat ≤ k.rows
      · obtain ⟨hlt, hle⟩ := hreg
        rcases hd with rfl | rfl
        · rw [keypadScroll_down k st en rest _ hlt hle, keypadScroll_down k st en rest _ hlt hle]
          exact ctrlBlind_updateKeypad k (fun x => { x with disp := scrollDown x.disp st.toNat en.toNat }) c s
        · rw [keypadScroll_up k st en rest _ hlt hle, keypadScroll_up k st en rest _ hlt hle]
          exact ctrlBlind_updateKeypad k (fun x => { x with disp := scrollUp x.disp st.toNat en.toNat }) c s
      · rw [keypadScroll_bad k st en d rest _ hd hreg, keypadScroll_bad k st en d rest _ hd hreg]
        exact ctrlBlind_argFault c s
    · obtain ⟨h1, h2⟩ := not_or.1 hd
      rw [keypadScroll_other k st en d rest _ h1 h2, keypadScroll_other k st en d rest _ h1 h2]

theorem ctrlBlind_keypadInvrange (k : KeypadId) (args : List Byte) : CtrlBlind (keypadInvrange k args) := by
  intro c s
  match args with
  | [] | [_] | [_, _] => exact ctrlBlind_argFault c s
  | l :: st :: en :: rest =>
    by_cases hbad : k.rows ≤ l.toNat ∨ ¬ (st.toNat < en.toNat ∧ en.toNat ≤ 16)
    · rw [keypadInvrange_bad k l st en rest _ hbad, keypadInvrange_bad k l st en rest _ hbad]
      exact ctrlBlind_argFault c s
    · simp only [not_or, not_not, Nat.not_le] at hbad
      obtain ⟨hl, hlt, hle⟩ := hbad
      rw [keypadInvrange_ok k l st en rest _ hl hlt hle, keypadInvrange_ok k l st en rest _ hl hlt hle]
      exact ctrlBlind_updateKeypad k (fun x => { x with inv := ⟨true, l, st, en⟩ }) c s

theorem ctrlBlind_spaBstatus (args : List Byte) : CtrlBlind (spaBstatus args) := by
  intro c s
  cases args <;> rfl

theorem ctrlBlind_spaTstatus (args : List Byte) : CtrlBlind (spaTstatus args) := by
  intro c s
  have hpar : statusText (withCtrl c s).par args = statusText s.par args := rfl
  rw [spaTstatus, spaTstatus, hpar]
  cases statusText s.par args <;> rfl

/-- The EXEC step of every command is one function that neither reads nor writes `CTRL`. -/
theorem exec_ctrlBlind (i : Instr) (u : UnitId) (hi : i.unit? = some u) :
    ∃ f, CtrlBlind f ∧ ∀ s, exec i s = .next (finishCommand u (f s)) := by
  cases i <;> simp only [Instr.unit?, reduceCtorEq, Option.some.injEq] at hi <;> subst hi
  case sqProbe | sqHandshake | pdaProbe | pdaHandshake | spaProbe | spaChreq =>
    exact ⟨_, ctrlBlind_id, fun _ => rfl⟩
  case sqUnknown | pdaUnknown | spaUnknown => exact ⟨_, ctrlBlind_countUnknown, fun _ => rfl⟩
  case sqStatus args => exact ⟨_, ctrlBlind_keypadStatus .sq args, fun _ => rfl⟩
  case pdaStatus args => exact ⟨_, ctrlBlind_keypadStatus .pda args, fun _ => rfl⟩
  case sqWrite args => exact ⟨_, ctrlBlind_keypadWrite .sq args, fun _ => rfl⟩
  case pdaWrite args => exact ⟨_, ctrlBlind_keypadWrite .pda args, fun _ => rfl⟩
  case sqInvline args => exact ⟨_, ctrlBlind_keypadInvline .sq args, fun _ => rfl⟩
  case pdaInvline args => exact ⟨_, ctrlBlind_keypadInvline .pda args, fun _ => rfl⟩
  case sqClear => exact ⟨_, ctrlBlind_keypadClear .sq, fun _ => rfl⟩
  case pdaClear => exact ⟨_, ctrlBlind_keypadClear .pda, fun _ => rfl⟩
  case sqScroll args => exact ⟨_, ctrlBlind_keypadScroll .sq args, fun _ => rfl⟩
  case pdaScroll args => exact ⟨_, ctrlBlind_keypadScroll .pda args, fun _ => rfl⟩
  case sqInvrange args => exact ⟨_, ctrlBlind_keypadInvrange .sq args, fun _ => rfl⟩
  case pdaInvrange args => exact ⟨_, ctrlBlind_keypadInvrange .pda args, fun _ => rfl⟩
  case spaBstatus args => exact ⟨_, ctrlBlind_spaBstatus args, fun _ => rfl⟩
  case spaTstatus args => exact ⟨_, ctrlBlind_spaTstatus args, fun _ => rfl⟩

/-! ### ENGINE in EXEC, GAP and TX -/

theorem engineStep_withCtrl_exec {s t : State} (c : BitVec 4) (hd : s.ds = .exec) (h : engineStep s = .next t) :
    engineStep (withCtrl c s) = .next (withCtrl c t) := by
  obtain ⟨f, hf, hexec⟩ := exec_ctrlBlind s.latched s.fUnit (latched_unit s)
  rw [engineStep_exec s hd, hexec] at h
  cases h
  rw [engineStep_exec (withCtrl c s) hd]
  exact (hexec (withCtrl c s)).trans (congrArg _ ((ctrlBlind_finishCommand s.fUnit).comp hf c s))

theorem engineStep_withCtrl_gap {s t : State} (c : BitVec 4) (hd : s.ds = .gap) (hc : c.getLsbD 0 = s.ctrl.getLsbD 0)
    (h : engineStep s = .next t) : engineStep (withCtrl c s) = .next (withCtrl c t) := by
  have hen : (withCtrl c s).ctrlEn = s.ctrlEn := hc
  have hd' : (withCtrl c s).ds = .gap := hd
  simp only [engineStep, hd, hd', hen, Host.Outcome.next.injEq] at h ⊢
  subst h
  rw [apply_ite (withCtrl c), apply_ite (withCtrl c)]
  rfl

theorem engineStep_withCtrl_tx {s t : State} (c : BitVec 4) (hd : s.ds = .tx) (h : engineStep s = .next t) :
    engineStep (withCtrl c s) = .next (withCtrl c t) := by
  have hd' : (withCtrl c s).ds = .tx := hd
  simp only [engineStep, hd, hd', Host.Outcome.next.injEq] at h ⊢
  subst h
  rw [apply_ite (withCtrl c), apply_ite (withCtrl c)]
  rfl

/-- Settles O56: in EXEC no command reads `CTRL`, in GAP only its bit 0 is read, and in TX none of it. -/
theorem enablesAreSampledAtDispatch : Obligations.EnablesAreSampledAtDispatch := by
  intro s t c rest hs hd hc hstep
  rw [step_cons s .engine rest hs] at hstep
  rw [step_cons { s with ctrl := c } .engine rest hs]
  rcases hd with hd | hd | hd
  · exact engineStep_withCtrl_exec (s := { s with schedule := rest }) c hd hstep
  · exact engineStep_withCtrl_gap (s := { s with schedule := rest }) c hd hc hstep
  · exact engineStep_withCtrl_tx (s := { s with schedule := rest }) c hd hstep

end Sys2Proof.Machine
end
